-- ==== Sys2Proof/Word.lean ====
section
/-! DEFINITION. The widths of the spec: bytes, halfwords, words, bus addresses, master tags and the numbers of
axles, bogies and windows (00_scope 1.2, 1.3, 4.1). -/

namespace Sys2Proof

/-- A byte of a record or of the control page. -/
abbrev Byte := BitVec 8

/-- A 16-bit field; multi-byte fields are little-endian (00_scope 4.3). -/
abbrev Half := BitVec 16

/-- The 32 data bits of the rack bus, and a time-base value (R2). -/
abbrev Word := BitVec 32

/-- A 24-bit byte address of the rack bus (00_scope 1.2). -/
abbrev Address := BitVec 24

/-- A master tag, 0 to 7 (00_scope Table 1). -/
abbrev Tag := Fin 8

/-- An axle number, 0 to 7. -/
abbrev AxleNo := Fin 8

/-- A bogie number, 0 to 3. -/
abbrev BogieNo := Fin 4

/-- The number of an entry of the window table, 0 to 15. -/
abbrev WindowNo := Fin 16

end Sys2Proof
end

