-- ==== Sys2Proof/Syntax.lean ====
section
/-! DEFINITION. The commands: one constructor for each row of spec/opcode_table.json, with the operands the event
carries. The table gives no fields; the operands are the access, the axle or bogie, the strap level or the data
that the rule of the row speaks of. -/

namespace Sys2Proof

/-- The sizes of a rack bus access: 1, 2 or 4 bytes (00_scope 1.2). -/
inductive AccessSize where
  | byte
  | half
  | word
deriving DecidableEq, Repr

/-- The commands of the part. A U-port row carries the access a master presents: its tag, address and size and, for
a write, the 32 data bits, of which the low bytes are the access's bytes, lowest address first. Which treatment
the access gets is the part's own decision (R7). -/
inductive Instr where
  /-- POWER_ON (R153): the supply comes up with PAGESEL at `straps`. -/
  | powerOn (straps : Fin 8)
  /-- RACKRST (R140): the rack reset input, with PAGESEL at `straps`. -/
  | rackReset (straps : Fin 8)
  /-- STAGING_WRITE (R14). -/
  | stagingWrite (tag : Tag) (address : Address) (size : AccessSize) (data : Word)
  /-- SPEED_COMMIT (R26). -/
  | speedCommit (tag : Tag) (address : Address) (size : AccessSize) (data : Word)
  /-- FEEDBACK_COMMIT (R80). -/
  | feedbackCommit (tag : Tag) (address : Address) (size : AccessSize) (data : Word)
  /-- DEMAND_COMMIT (R142). -/
  | demandCommit (tag : Tag) (address : Address) (size : AccessSize) (data : Word)
  /-- PASS_WRITE (R11). -/
  | passWrite (tag : Tag) (address : Address) (size : AccessSize) (data : Word)
  /-- PASS_READ (R11). -/
  | passRead (tag : Tag) (address : Address) (size : AccessSize)
  /-- SPEED_RECORD_READ (R19). -/
  | speedRecordRead (tag : Tag) (address : Address) (size : AccessSize)
  /-- PAGE_WRITE (R165). -/
  | pageWrite (tag : Tag) (address : Address) (size : AccessSize) (data : Word)
  /-- SHADOW_TABLE_WRITE (R166). -/
  | shadowTableWrite (tag : Tag) (address : Address) (size : AccessSize) (data : Word)
  /-- ROUTE_TABLE_WRITE (R158). -/
  | routeTableWrite (tag : Tag) (address : Address) (size : AccessSize) (data : Word)
  /-- MODE_REQUEST_RUN (R148). -/
  | modeRequestRun (tag : Tag) (address : Address) (size : AccessSize) (data : Word)
  /-- MODE_REQUEST_SETUP (R148). -/
  | modeRequestSetup (tag : Tag) (address : Address) (size : AccessSize) (data : Word)
  /-- CLEAR_PERSISTENT (R62). -/
  | clearPersistent (tag : Tag) (address : Address) (size : AccessSize) (data : Word)
  /-- NOTICE_ACKNOWLEDGE (R156). -/
  | noticeAcknowledge (tag : Tag) (address : Address) (size : AccessSize) (data : Word)
  /-- SAND_REFILL (R118). -/
  | sandRefill (tag : Tag) (address : Address) (size : AccessSize) (data : Word)
  /-- DEVICE_STATUS_READ (R161). -/
  | deviceStatusRead (tag : Tag) (address : Address) (size : AccessSize)
  /-- NOTICE_ENTRY_READ (R161). -/
  | noticeEntryRead (tag : Tag) (address : Address) (size : AccessSize)
  /-- STALENESS_EXPIRY (R33). -/
  | stalenessExpiry (axle : AxleNo)
  /-- FRESHNESS_EXPIRY (R83). -/
  | freshnessExpiry (bogie : BogieNo)
  /-- DEMAND_TIMER_EXPIRY (R146). -/
  | demandTimerExpiry (bogie : BogieNo)
  /-- RELEASE_WAIT_EXPIRY (R99). -/
  | releaseWaitExpiry
  /-- SETTLING_TIMER_EXPIRY (R104). -/
  | settlingTimerExpiry
  /-- WINDOW_TIMER_EXPIRY (R111). -/
  | windowTimerExpiry
  /-- DWELL_TIMER_EXPIRY (R113). -/
  | dwellTimerExpiry (bogie : BogieNo)
  /-- RUN_TIMER_EXPIRY (R114). -/
  | runTimerExpiry (bogie : BogieNo)
  /-- PAUSE_TIMER_EXPIRY (R115). -/
  | pauseTimerExpiry (bogie : BogieNo)
  /-- BUDGET_UNIT_FALL (R116). -/
  | budgetUnitFall (bogie : BogieNo)
  /-- REWRITE_ISSUE (R130): of the lowest-numbered bogie in the rewrite set. -/
  | rewriteIssue
  /-- DEMAND_COMMIT_ISSUE (R131): of the head of the queue. -/
  | demandCommitIssue
  /-- RECORD_BURST_ISSUE (R135): of the head of the queue. -/
  | recordBurstIssue
  /-- PASS_ACCESS_ISSUE (R135): of the head of the queue. -/
  | passAccessIssue
  /-- D_PORT_ACK (R134): memory answers ACK; `data` is what a read returns. `began` names the access that is answered by
  the time-base value at which it began, and is absent for the access in flight (R136; log 22). -/
  | dPortAck (data : Word) (began : Option Word := none)
  /-- D_PORT_ERR (R136): memory answers ERR to the access that `began` names, as in D_PORT_ACK. -/
  | dPortErr (began : Option Word := none)
  /-- D_PORT_TIMEOUT (R136). -/
  | dPortTimeout
deriving DecidableEq, Repr

end Sys2Proof
end

