-- ==== Sys2Proof/Decode.lean ====
section
/-! DEFINITION. Words of commands. The table gives no row any bits, so no word spells a command. -/

namespace Sys2Proof

/-- The command a word spells by the table's bits: none, for spec/opcode_table.json gives no row bits (log 21). -/
def decodeTableWord (_nbits _w : Nat) : Option Instr :=
  none

end Sys2Proof
end

