-- ==== Sys2Proof/Config.lean ====
section
/-! DEFINITION. What an implementation fixes and the spec leaves open. -/

namespace Sys2Proof

/-- FREE VALUE (log 3): which of several events of the part's own that fall due together is taken first. The spec
allows every order (R33, R83, R99, R104, R113 to R116, R127, R136, R146); the `k`-th time the model must choose, it
reads this at `k`. Nothing is known of it. -/
opaque Config.raceOrder : Nat → Nat

end Sys2Proof
end

