-- ==== Sys2Proof/WellFormed.lean ====
section
/-! DEFINITION. Which operands fit a command's row: the accesses of the row that its address, size and data alone
can show (R6, R15, R164, R165, R168). The machine gives every command a meaning, well-formed or not: an access
spelt under another row's name is treated by its address all the same (R7). -/

namespace Sys2Proof

/-- How many bytes an access moves. -/
def AccessSize.bytes : AccessSize → Nat
  | .byte => 1
  | .half => 2
  | .word => 4

/-- The access is naturally aligned (R6). -/
def alignedAccess (address : Address) (size : AccessSize) : Bool :=
  address.toNat % size.bytes == 0

/-- The offset of an address within the control page that some PAGESEL value would place there (R164). -/
def pageOffsetOf (address : Address) : Option Nat :=
  if address.toNat / 0x40000 < 8 ∧ 0x3FC00 ≤ address.toNat % 0x40000 ∧ address.toNat % 0x40000 < 0x3FF00 then
    some (address.toNat % 0x40000 - 0x3FC00)
  else none

/-- The access covers byte 15 of its 16-byte record (R15). -/
def coversByte15 (address : Address) (size : AccessSize) : Bool :=
  address.toNat % 16 + size.bytes == 16

/-- The access covers byte `i` of the control page. -/
def coversPageByte (address : Address) (size : AccessSize) (i : Nat) : Bool :=
  match pageOffsetOf address with
  | some off => decide (off ≤ i ∧ i < off + size.bytes)
  | none => false

/-- The access starts in the control page between two offsets, the second not included. -/
def startsInPage (address : Address) (lo hi : Nat) : Bool :=
  match pageOffsetOf address with
  | some off => decide (lo ≤ off ∧ off < hi)
  | none => false

/-- A write to the control record that makes no mode request (R168): byte 0 is not covered, or is 0. -/
def requestsNoMode (address : Address) (size : AccessSize) (data : Word) : Bool :=
  !coversPageByte address size 0x20 || data.toNat % 256 == 0

/-- The command's operands fit the row's name. -/
def Instr.wellFormed : Instr → Bool
  | .powerOn _ => true
  | .rackReset _ => true
  | .stagingWrite _ a z _ => alignedAccess a z && !coversByte15 a z
  | .speedCommit _ a z _ => alignedAccess a z && coversByte15 a z
  | .feedbackCommit _ a z _ => alignedAccess a z && coversByte15 a z
  | .demandCommit _ a z _ => alignedAccess a z && coversByte15 a z
  | .passWrite _ a z _ => alignedAccess a z
  | .passRead _ a z => alignedAccess a z
  | .speedRecordRead _ a z => alignedAccess a z
  | .pageWrite _ a z _ =>
      alignedAccess a z &&
        (startsInPage a 0 0x20 || startsInPage a 0x2C 0x40 || startsInPage a 0x1A0 0x300)
  | .shadowTableWrite _ a z _ => alignedAccess a z && startsInPage a 0x40 0x190
  | .routeTableWrite _ a z _ => alignedAccess a z && startsInPage a 0x190 0x1A0
  | .modeRequestRun _ a z d => alignedAccess a z && coversPageByte a z 0x20 && d.toNat % 256 == 1
  | .modeRequestSetup _ a z d => alignedAccess a z && coversPageByte a z 0x20 && d.toNat % 256 == 2
  | .clearPersistent _ a z d => alignedAccess a z && coversPageByte a z 0x21 && requestsNoMode a z d
  | .noticeAcknowledge _ a z d =>
      alignedAccess a z && (coversPageByte a z 0x22 || coversPageByte a z 0x23) && requestsNoMode a z d
  | .sandRefill _ a z _ => alignedAccess a z && startsInPage a 0x24 0x2C && decide (z ≠ .byte)
  | .deviceStatusRead _ a z => alignedAccess a z && startsInPage a 0 0x20
  | .noticeEntryRead _ a z => alignedAccess a z && startsInPage a 0x200 0x300
  | .stalenessExpiry _ => true
  | .freshnessExpiry _ => true
  | .demandTimerExpiry _ => true
  | .releaseWaitExpiry => true
  | .settlingTimerExpiry => true
  | .windowTimerExpiry => true
  | .dwellTimerExpiry _ => true
  | .runTimerExpiry _ => true
  | .pauseTimerExpiry _ => true
  | .budgetUnitFall _ => true
  | .rewriteIssue => true
  | .demandCommitIssue => true
  | .recordBurstIssue => true
  | .passAccessIssue => true
  | .dPortAck _ _ => true
  | .dPortErr _ => true
  | .dPortTimeout => true

end Sys2Proof
end

