-- ==== Sys2Proof/Machine/State.lean ====
section
/-! DEFINITION. The state of the part, block by block as the block diagram has it (00_scope section 2), the outcomes
of a step, and the state right after power-on. Plain data throughout. -/

namespace Sys2Proof.Machine

/-! ### Outcomes -/

/-- No command of the part faults: what the spec calls a failure is an answer, a notice or a mode change. -/
inductive Fault where
deriving DecidableEq, Repr

/-- Why a command could have no meaning. -/
inductive Refusal where
  /-- Raised by an arm of exec that has no meaning yet; no arm raises it now. Safe: the model stops. -/
  | notModelled (mnemonic : String)
deriving DecidableEq, Repr

/-! ### Common shapes -/

/-- A 16-byte record (R3). -/
abbrev Record := Vector Byte 16

/-- A timer: stopped, or running from a time-base value. -/
abbrev Timer := Option Word

/-- A set of bogie numbers. -/
abbrev BogieSet := Vector Bool 4

/-- Direction of travel or of a wheel (Table 11-1). -/
inductive Direction where
  | fwd
  | rev
deriving DecidableEq, Repr

/-- Slot A and slot B of a bogie (00_scope 1.3). -/
inductive Slot where
  | a
  | b
deriving DecidableEq, Repr

/-! ### U-port and staging store -/

/-- The answers of the U-port (R4). -/
inductive Answer where
  | ack
  | err
  | retry
deriving DecidableEq, Repr

/-- An access a master holds on the bus; `write` is absent for a read (R4). -/
structure Access where
  tag : Tag
  address : Address
  size : AccessSize
  write : Option Word
deriving DecidableEq, Repr

/-- An answer as the U-port gave it: to whom, what, and the data bytes of a read answered ACK (R4, R5). -/
structure Reply where
  tag : Tag
  answer : Answer
  data : Option (List Byte)
deriving DecidableEq, Repr

/-- The U-port: the access in progress and the answer last given (R4). -/
structure Bus where
  access : Option Access
  answer : Option Reply
deriving DecidableEq, Repr

/-- The staging store: sixteen slots (R13). -/
structure Staging where
  demand : Vector Record 4
  speed : Vector Record 8
  feedback : Vector Record 4
deriving DecidableEq, Repr

/-! ### Configuration shadow -/

/-- The six shadow tables, as bytes (R165, R169). -/
structure Shadow where
  windows : Vector (Vector Byte 8) 16
  axles : Vector (Vector Byte 8) 8
  bogies : Vector (Vector Byte 16) 4
  vehicle : Vector Byte 64
  coefficients : Vector Byte 16
  routes : Vector Byte 16
deriving DecidableEq, Repr

/-! ### Speed intake and adhesion unit -/

/-- Quality of a speed record (Table 11-2). -/
inductive Quality where
  | good
  | noisy
  | dropout
deriving DecidableEq, Repr

/-- A stored sample (R25). -/
structure Sample where
  speed : Nat
  quality : Quality
deriving DecidableEq, Repr

/-- Adhesion states (R44). -/
inductive AdhesionState where
  | grip
  | creep
  | slip
  | recover
  | stale
deriving DecidableEq, Repr

/-- An axle record: the intake's fields (R25) and the adhesion unit's (R44). -/
structure Axle where
  ring : Vector Nat 8
  position : Fin 8
  fill : Nat
  latest : Option Sample
  lastArrival : Option Word
  lastSequence : Option Byte
  staleness : Timer
  state : AdhesionState
  slip : Int
  acceleration : Int
  entryEffort : Nat
  cutLevel : Nat
  ceilingBase : Nat
  slipEntry : Option Word
  recoverEntry : Option Word
  lastEmitted : Int
  slipEntries : List Word
  persistent : Bool
deriving DecidableEq, Repr

/-- The reference unit: Vref, unset or a speed, and its elapsed counter (R37, R38). -/
structure Intake where
  vref : Option Nat
  elapsed : Nat
deriving DecidableEq, Repr

/-! ### Blend unit -/

/-- Controller states of a feedback record (Table 11-3). -/
inductive ControllerState where
  | ready
  | fault
deriving DecidableEq, Repr

/-- The values of an applied feedback record (R79). -/
structure FeedbackValues where
  controller : ControllerState
  availableA : Nat
  availableB : Nat
  achievedA : Int
  achievedB : Int
deriving DecidableEq, Repr

/-- A feedback context (R79). -/
structure Feedback where
  latest : Option FeedbackValues
  lastArrival : Option Word
  lastSequence : Option Byte
  freshness : Timer
  granted : Nat
deriving DecidableEq, Repr

/-! ### Hold and rollback unit -/

/-- The hold gate (R95). -/
inductive Gate where
  | opened
  | closed
deriving DecidableEq, Repr

/-- The rollback latch (R102). -/
inductive Latch where
  | clear
  | latched
  | settling
deriving DecidableEq, Repr

/-- The gate record, the latch record and the vehicle direction (R95, R100, R102). -/
structure Hold where
  gate : Gate
  releaseWait : Timer
  blockedReported : Bool
  direction : Direction
  latch : Latch
  held : BogieSet
  settling : Timer
  settled : Bool
deriving DecidableEq, Repr

/-! ### Sander unit -/

/-- Sander states (R108). -/
inductive SanderState where
  | off
  | on
  | dwell
  | pause
  | empty
deriving DecidableEq, Repr

/-- A sander record (R108). -/
structure Sander where
  state : SanderState
  budget : Half
  accumulator : Nat
  runTimer : Timer
  runOverdue : Bool
  dwellTimer : Timer
  pauseTimer : Timer
deriving DecidableEq, Repr

/-- The four sander records and the hill-start window record (R108). -/
structure Sand where
  sanders : Vector Sander 4
  windowOpen : Bool
  windowTimer : Timer
  usedSinceClosing : Bool
deriving DecidableEq, Repr

/-! ### Emission unit -/

/-- The kinds of queue entry, each with the data it carries (R123). -/
inductive EntryKind where
  | demandCommit (snapshot : Record)
  | speedRecord (snapshot : Record)
  | feedbackRecord (snapshot : Record)
  | passRead (size : AccessSize)
  | passWrite (size : AccessSize) (data : Word)
  | pageRead (size : AccessSize)
  | pageWrite (size : AccessSize) (data : Word)
deriving DecidableEq, Repr

/-- A queue entry (R123). Whether it is posted follows from its kind. -/
structure Entry where
  kind : EntryKind
  address : Address
  tag : Tag
  retries : Fin 2
deriving DecidableEq, Repr

/-- Whose record a burst writes: the head entry's, or a bogie's own rewrite with its retry count (R137). -/
inductive BurstOf where
  | head
  | rewrite (bogie : BogieNo) (retries : Fin 2)
deriving DecidableEq, Repr

/-- What the D-port carries: the access of the head entry, or a bracketed burst with the record fixed at its issue
and the write it has reached, 0 to 4 for writes 1 to 5 (R127, R134). `began` is when the access now on the D-port
began (R136). -/
inductive Flight where
  | access (began : Word)
  | burst (of : BurstOf) (address : Address) (record : Record) (write : Fin 5) (began : Word)
deriving DecidableEq, Repr

/-- What the arbiter chooses to issue: the head entry, or a rewrite of a bogie (R127). -/
inductive Choice where
  | head
  | rewrite (bogie : BogieNo)
deriving DecidableEq, Repr

/-- The emission unit's state (08 introduction). `decision` is the MODEL'S OWN (log 9): what the arbiter has decided to
issue, from the event that made it decide until the issue (R127). -/
structure Emission where
  queue : List Entry
  rewriteSet : BogieSet
  streak : Nat
  inFlight : Option Flight
  decision : Option Choice
deriving DecidableEq, Repr

/-! ### Demand supervisor and mode controller -/

/-- Modes of a demand (Table 11-1). -/
inductive DemandMode where
  | coast
  | drive
  | brake
  | hold
deriving DecidableEq, Repr

/-- A request (R141); the gradient is the signed byte of the record. -/
structure Request where
  mode : DemandMode
  direction : Direction
  driverSand : Bool
  isolateA : Bool
  isolateB : Bool
  gradient : Byte
  tractionA : Nat
  tractionB : Nat
  brake : Nat
  sequence : Byte
deriving DecidableEq, Repr

/-- A supervision record (R141). -/
structure Supervision where
  standing : Request
  late : Bool
  timer : Timer
deriving DecidableEq, Repr

/-- Device modes (R148). -/
inductive DeviceMode where
  | setup
  | run
  | fallback
deriving DecidableEq, Repr

/-- Fallback causes (R148). -/
inductive FallbackCause where
  | none
  | refLost
  | memoryFault
deriving DecidableEq, Repr

/-- The mode controller's state and the sampled PAGESEL (R148, R164). -/
structure Control where
  mode : DeviceMode
  rejectReason : Fin 10
  fallbackCause : FallbackCause
  pagesel : Fin 8
deriving DecidableEq, Repr

/-! ### Notice unit, overlay unit, pins -/

/-- The notice kinds, codes 1 to 15 in this order (R154). -/
inductive NoticeKind where
  | rollback
  | refLost
  | memoryFault
  | demandLate
  | brakeShortfall
  | sandEmpty
  | startBlocked
  | persistentSlip
  | axleStale
  | slipEntry
  | sandLow
  | recordRejected
  | accessRefused
  | seqGap
  | configRejected
deriving DecidableEq, Repr

/-- A notice entry (R154). -/
structure Notice where
  pending : Bool
  count : Byte
  firstIndex : Byte
  latestIndex : Byte
  firstTime : Word
  latestTime : Word
deriving DecidableEq, Repr

/-- The enriched records a snapshot can hold (R161). -/
inductive EnrichedKind where
  | deviceStatus
  | noticeEntry
  | speedRecord
deriving DecidableEq, Repr

/-- A snapshot: one enriched record's address and the values of its overlaid bytes, by byte offset; a byte the part
does not overlay is absent (R161). -/
structure Snapshot where
  kind : EnrichedKind
  address : Address
  values : List (Option Byte)
deriving DecidableEq, Repr

/-- The overlay unit: a snapshot slot a tag, and the values fixed for the read in progress (R161). -/
structure Overlay where
  snapshots : Vector (Option Snapshot) 8
  fixed : Option (List (Option Byte))
deriving DecidableEq, Repr

/-- The levels of CUT0 to CUT3 and ALERT (R76, R158). -/
structure Lines where
  cut : Vector Bool 4
  alert : Bool
deriving DecidableEq, Repr

/-- The state of the part. -/
structure State where
  timeBase : Word
  control : Control
  shadow : Shadow
  bus : Bus
  staging : Staging
  axles : Vector Axle 8
  intake : Intake
  feedback : Vector Feedback 4
  hold : Hold
  sand : Sand
  supervision : Vector Supervision 4
  emission : Emission
  notices : Vector Notice 15
  overlay : Overlay
  lines : Lines
  /-- MODEL'S OWN (log 3): how often the free value `Config.raceOrder` has been read. -/
  races : Nat
  /-- MODEL'S OWN: the commands that are waiting, first in, first out. -/
  pending : List Instr
deriving DecidableEq, Repr

/-! ### Reset values -/

/-- An axle record after a reset, SETUP entry or RUN entry (R41, R64). -/
def Axle.reset : Axle where
  ring := Vector.replicate 8 0
  position := 0
  fill := 0
  latest := none
  lastArrival := none
  lastSequence := none
  staleness := none
  state := .stale
  slip := 0
  acceleration := 0
  entryEffort := 0
  cutLevel := 0
  ceilingBase := 0
  slipEntry := none
  recoverEntry := none
  lastEmitted := 0
  slipEntries := []
  persistent := false

/-- The reference unit after a reset, SETUP entry or RUN entry (R41, R42). -/
def Intake.reset : Intake where
  vref := none
  elapsed := 0

/-- A feedback context after a reset, SETUP entry or RUN entry (R93). -/
def Feedback.reset : Feedback where
  latest := none
  lastArrival := none
  lastSequence := none
  freshness := none
  granted := 0

/-- The hold and rollback unit after a reset, SETUP entry or RUN entry (R107). -/
def Hold.reset : Hold where
  gate := .closed
  releaseWait := none
  blockedReported := false
  direction := .fwd
  latch := .clear
  held := Vector.replicate 4 false
  settling := none
  settled := false

/-- A sander record after power-on (R122). -/
def Sander.reset : Sander where
  state := .off
  budget := 0
  accumulator := 0
  runTimer := none
  runOverdue := false
  dwellTimer := none
  pauseTimer := none

/-- The sander unit after power-on (R122). -/
def Sand.reset : Sand where
  sanders := Vector.replicate 4 Sander.reset
  windowOpen := false
  windowTimer := none
  usedSinceClosing := false

/-- The standing request of R150: HOLD, FWD and zeros. -/
def Request.reset : Request where
  mode := .hold
  direction := .fwd
  driverSand := false
  isolateA := false
  isolateB := false
  gradient := 0
  tractionA := 0
  tractionB := 0
  brake := 0
  sequence := 0

/-- A supervision record after a reset or SETUP entry (R150, R151, R153). -/
def Supervision.reset : Supervision where
  standing := Request.reset
  late := false
  timer := none

/-- The staging store, cleared (R22). -/
def Staging.reset : Staging where
  demand := Vector.replicate 4 (Vector.replicate 16 0)
  speed := Vector.replicate 8 (Vector.replicate 16 0)
  feedback := Vector.replicate 4 (Vector.replicate 16 0)

/-- The shadow, zeroed (R166). -/
def Shadow.reset : Shadow where
  windows := Vector.replicate 16 (Vector.replicate 8 0)
  axles := Vector.replicate 8 (Vector.replicate 8 0)
  bogies := Vector.replicate 4 (Vector.replicate 16 0)
  vehicle := Vector.replicate 64 0
  coefficients := Vector.replicate 16 0
  routes := Vector.replicate 16 0

/-- The emission unit after a reset (R140). -/
def Emission.reset : Emission where
  queue := []
  rewriteSet := Vector.replicate 4 false
  streak := 0
  inFlight := none
  decision := none

/-- A clear notice entry (R154). -/
def Notice.clear : Notice where
  pending := false
  count := 0
  firstIndex := 0
  latestIndex := 0
  firstTime := 0
  latestTime := 0

/-- The overlay unit after a reset (R163). -/
def Overlay.reset : Overlay where
  snapshots := Vector.replicate 8 none
  fixed := none

/-- The U-port with no access in progress. No answer given is the model's own value for the bus (log 8). -/
def Bus.idle : Bus where
  access := none
  answer := none

/-- All output lines low (R78, R159). -/
def Lines.low : Lines where
  cut := Vector.replicate 4 false
  alert := false

/-- The part right after power-on with PAGESEL at 0 (R153, R2, R22, R41, R64, R93, R107, R122, R140, R159, R163,
R166; the strap level is log 6). -/
def State.reset : State where
  timeBase := 0
  control :=
    { mode := .setup
      rejectReason := 0
      fallbackCause := .none
      pagesel := 0 }
  shadow := Shadow.reset
  bus := Bus.idle
  staging := Staging.reset
  axles := Vector.replicate 8 Axle.reset
  intake := Intake.reset
  feedback := Vector.replicate 4 Feedback.reset
  hold := Hold.reset
  sand := Sand.reset
  supervision := Vector.replicate 4 Supervision.reset
  emission := Emission.reset
  notices := Vector.replicate 15 Notice.clear
  overlay := Overlay.reset
  lines := Lines.low
  races := 0
  pending := []

/-! ### Replacing one block

The operations change State through these, so that what they leave alone is said once (Laws/State.lean). -/

/-- The state with another time base. -/
def State.withTimeBase (s : State) (x : Word) : State := { s with timeBase := x }

/-- The state with another mode controller. -/
def State.withControl (s : State) (x : Control) : State := { s with control := x }

/-- The state with another shadow. -/
def State.withShadow (s : State) (x : Shadow) : State := { s with shadow := x }

/-- The state with another U-port. -/
def State.withBus (s : State) (x : Bus) : State := { s with bus := x }

/-- The state with another staging store. -/
def State.withStaging (s : State) (x : Staging) : State := { s with staging := x }

/-- The state with another axle record table. -/
def State.withAxles (s : State) (x : Vector Axle 8) : State := { s with axles := x }

/-- The state with another reference unit. -/
def State.withIntake (s : State) (x : Intake) : State := { s with intake := x }

/-- The state with other feedback contexts. -/
def State.withFeedback (s : State) (x : Vector Feedback 4) : State := { s with feedback := x }

/-- The state with another hold and rollback unit. -/
def State.withHold (s : State) (x : Hold) : State := { s with hold := x }

/-- The state with another sander unit. -/
def State.withSand (s : State) (x : Sand) : State := { s with sand := x }

/-- The state with other supervision records. -/
def State.withSupervision (s : State) (x : Vector Supervision 4) : State := { s with supervision := x }

/-- The state with another emission unit. -/
def State.withEmission (s : State) (x : Emission) : State := { s with emission := x }

/-- The state with another notice table. -/
def State.withNotices (s : State) (x : Vector Notice 15) : State := { s with notices := x }

/-- The state with another overlay unit. -/
def State.withOverlay (s : State) (x : Overlay) : State := { s with overlay := x }

/-- The state with other line levels. -/
def State.withLines (s : State) (x : Lines) : State := { s with lines := x }

/-- The state with another count of races. -/
def State.withRaces (s : State) (x : Nat) : State := { s with races := x }

/-- The state with other waiting commands. -/
def State.withPending (s : State) (x : List Instr) : State := { s with pending := x }

end Sys2Proof.Machine
end

