-- ==== Sys2Proof/Machine/Ops.lean ====
section
/-! DEFINITION. The shared operations: bytes and words, intervals and timers, the parameters of the shadow, bogie
sets, notices, the output lines, joining the queue and the rewrite set, and answering the U-port. -/

namespace Sys2Proof.Machine

/-! ### Bytes and words (00_scope 4.3) -/

/-- Two bytes, lowest address first, as a halfword. -/
def le16 (lo hi : Byte) : Half :=
  hi ++ lo

/-- Three bytes, lowest address first, as an address. -/
def le24 (b0 b1 b2 : Byte) : Address :=
  (b2 ++ b1 ++ b0 : BitVec 24)

/-- Four bytes, lowest address first, as a word. -/
def le32 (b0 b1 b2 b3 : Byte) : Word :=
  (b3 ++ b2 ++ b1 ++ b0 : BitVec 32)

/-- Byte `k` of a value, byte 0 the least significant. -/
def byteOf {w : Nat} (x : BitVec w) (k : Nat) : Byte :=
  x.extractLsb' (8 * k) 8

/-- The low bytes of a word that an access of the size moves, lowest address first (log 7). -/
def dataBytes (size : AccessSize) (d : Word) : List Byte :=
  match size with
  | .byte => [byteOf d 0]
  | .half => [byteOf d 0, byteOf d 1]
  | .word => [byteOf d 0, byteOf d 1, byteOf d 2, byteOf d 3]

/-- The bytes of an access laid over a table or record at an offset; bytes beyond its end are dropped, which an
aligned access never has (R6). -/
def writeBytes {n : Nat} (v : Vector Byte n) (off : Nat) (size : AccessSize) (d : Word) : Vector Byte n :=
  match size with
  | .byte => v.setIfInBounds off (byteOf d 0)
  | .half => (v.setIfInBounds off (byteOf d 0)).setIfInBounds (off + 1) (byteOf d 1)
  | .word =>
    (((v.setIfInBounds off (byteOf d 0)).setIfInBounds (off + 1) (byteOf d 1)).setIfInBounds
      (off + 2) (byteOf d 2)).setIfInBounds (off + 3) (byteOf d 3)

/-- The bytes `off`, `off + 1`, ... of a table, as many as the access moves. -/
def readBytes {n : Nat} (v : Vector Byte n) (off : Nat) (size : AccessSize) : List Byte :=
  (v.toList.drop off).take size.bytes

/-! ### Intervals, stamps and timers (R2) -/

/-- An interval in microseconds: the difference of two time-base values modulo 2^32. -/
def interval (later earlier : Word) : Nat :=
  (later - earlier).toNat

/-- A stamp: bits 23 to 8 of a time-base value. -/
def stamp (t : Word) : Half :=
  t.extractLsb' 8 16

/-- The stamp of a time that may be absent, 0 if it is (R34, R85). -/
def stampOr0 (t : Option Word) : Half :=
  match t with
  | some t => stamp t
  | none => 0

/-- The timer runs and its interval has elapsed. -/
def timerDue (t : Timer) (now : Word) (micros : Nat) : Bool :=
  match t with
  | some t0 => decide (micros ≤ interval now t0)
  | none => false

/-! ### Parameters of the shadow (Tables 11-4 to 11-7) -/

/-- Byte `i` of the vehicle record. -/
def Shadow.vehicleByte (sh : Shadow) (i : Fin 64) : Nat :=
  sh.vehicle[i].toNat

/-- The halfword at byte `i` of the vehicle record. -/
def Shadow.vehicleHalf (sh : Shadow) (i : Fin 63) : Nat :=
  (le16 sh.vehicle[i.val] sh.vehicle[i.val + 1]).toNat

def Shadow.axleCount (sh : Shadow) : Nat := sh.vehicleByte 0
def Shadow.bogieCount (sh : Shadow) : Nat := sh.vehicleByte 1
/-- Mass in tonnes. -/
def Shadow.mass (sh : Shadow) : Nat := sh.vehicleByte 2
/-- Estimator gain G. -/
def Shadow.gain (sh : Shadow) : Nat := sh.vehicleByte 3
def Shadow.creepAbsolute (sh : Shadow) : Nat := sh.vehicleHalf 4
def Shadow.slipAbsolute (sh : Shadow) : Nat := sh.vehicleHalf 6
def Shadow.creepFraction (sh : Shadow) : Nat := sh.vehicleHalf 8
def Shadow.slipFraction (sh : Shadow) : Nat := sh.vehicleHalf 10
def Shadow.hysteresis (sh : Shadow) : Nat := sh.vehicleHalf 12
/-- Acceleration threshold A. -/
def Shadow.accelerationThreshold (sh : Shadow) : Nat := sh.vehicleHalf 14
def Shadow.cutFraction (sh : Shadow) : Nat := sh.vehicleHalf 16
def Shadow.persistentCap (sh : Shadow) : Nat := sh.vehicleHalf 18
/-- Reference slope, 0.01 km/h per 100 ms. -/
def Shadow.slope (sh : Shadow) : Nat := sh.vehicleHalf 20
def Shadow.standstillSpeed (sh : Shadow) : Nat := sh.vehicleHalf 22
def Shadow.rollbackSpeed (sh : Shadow) : Nat := sh.vehicleHalf 24
def Shadow.fadeStart (sh : Shadow) : Nat := sh.vehicleHalf 26
def Shadow.fadeEnd (sh : Shadow) : Nat := sh.vehicleHalf 28
/-- Minimum slip dwell in microseconds. -/
def Shadow.slipDwell (sh : Shadow) : Nat := sh.vehicleByte 30 * 1000
/-- Ramp rate, 0.1 kN per 10 ms. -/
def Shadow.rampRate (sh : Shadow) : Nat := sh.vehicleByte 31
/-- Persistent window in microseconds. -/
def Shadow.persistentWindow (sh : Shadow) : Nat := sh.vehicleByte 32 * 100000
/-- Staleness timeout in microseconds (R32). -/
def Shadow.stalenessTimeout (sh : Shadow) : Nat := sh.vehicleByte 33 * 1000
/-- Demand timeout in microseconds (R146). -/
def Shadow.demandTimeout (sh : Shadow) : Nat := sh.vehicleByte 34 * 10000
/-- Feedback timeout in microseconds (R83). -/
def Shadow.feedbackTimeout (sh : Shadow) : Nat := sh.vehicleByte 35 * 10000
/-- Rollback clear time in microseconds (R104). -/
def Shadow.rollbackClearTime (sh : Shadow) : Nat := sh.vehicleByte 36 * 10000
/-- Hold-release timeout in microseconds (R99). -/
def Shadow.holdReleaseTimeout (sh : Shadow) : Nat := sh.vehicleByte 37 * 100000
/-- Hill-start sand grade, per mille. -/
def Shadow.hillStartGrade (sh : Shadow) : Nat := sh.vehicleByte 38
/-- Hill-start sand time in microseconds (R111). -/
def Shadow.hillStartTime (sh : Shadow) : Nat := sh.vehicleByte 39 * 100000
/-- Sand dwell in microseconds (R113). -/
def Shadow.sandDwell (sh : Shadow) : Nat := sh.vehicleByte 40 * 100000
/-- Maximum continuous sand in microseconds (R114). -/
def Shadow.maximumSand (sh : Shadow) : Nat := sh.vehicleByte 41 * 100000
/-- Sand pause in microseconds (R115). -/
def Shadow.sandPause (sh : Shadow) : Nat := sh.vehicleByte 42 * 100000

/-- Coefficient h_k, signed Q15 (11_ section 11.5). -/
def Shadow.coefficient (sh : Shadow) (k : Fin 8) : Int :=
  (le16 sh.coefficients[2 * k.val] sh.coefficients[2 * k.val + 1]).toInt

def Shadow.axleEnabled (sh : Shadow) (n : AxleNo) : Bool := sh.axles[n][0] == 1
/-- The bogie an axle entry names (R45); entries of enabled axles hold 0 to 3 (R149), any other value is read modulo
4 (log 14). -/
def Shadow.axleBogie (sh : Shadow) (n : AxleNo) : BogieNo := Fin.ofNat 4 sh.axles[n][1].toNat
def Shadow.axleSlot (sh : Shadow) (n : AxleNo) : Nat := sh.axles[n][2].toNat
def Shadow.axleCutLine (sh : Shadow) (n : AxleNo) : Nat := sh.axles[n][3].toNat
def Shadow.maximumEffort (sh : Shadow) (n : AxleNo) : Nat := (le16 sh.axles[n][4] sh.axles[n][5]).toNat
def Shadow.staleLimit (sh : Shadow) (n : AxleNo) : Nat := (le16 sh.axles[n][6] sh.axles[n][7]).toNat

def Shadow.frictionMaximum (sh : Shadow) (b : BogieNo) : Nat := (le16 sh.bogies[b][0] sh.bogies[b][1]).toNat
def Shadow.brakeLimit (sh : Shadow) (b : BogieNo) : Nat := (le16 sh.bogies[b][2] sh.bogies[b][3]).toNat
def Shadow.holdEffort (sh : Shadow) (b : BogieNo) : Nat := (le16 sh.bogies[b][4] sh.bogies[b][5]).toNat
def Shadow.fallbackEffort (sh : Shadow) (b : BogieNo) : Nat := (le16 sh.bogies[b][6] sh.bogies[b][7]).toNat
def Shadow.slideRelease (sh : Shadow) (b : BogieNo) : Nat := (le16 sh.bogies[b][8] sh.bogies[b][9]).toNat
def Shadow.shortfallTolerance (sh : Shadow) (b : BogieNo) : Nat := (le16 sh.bogies[b][10] sh.bogies[b][11]).toNat
def Shadow.sandLow (sh : Shadow) (b : BogieNo) : Nat := (le16 sh.bogies[b][12] sh.bogies[b][13]).toNat
/-- Bit `c` of bogie b's slip-sand mask. -/
def Shadow.sandsFor (sh : Shadow) (b c : BogieNo) : Bool := sh.bogies[b][14].getLsbD c.val

def Shadow.windowBase (sh : Shadow) (w : WindowNo) : Nat :=
  (le24 sh.windows[w][0] sh.windows[w][1] sh.windows[w][2]).toNat
def Shadow.windowSizeCode (sh : Shadow) (w : WindowNo) : Nat := sh.windows[w][3].toNat
def Shadow.windowKind (sh : Shadow) (w : WindowNo) : Nat := sh.windows[w][4].toNat
def Shadow.windowFirst (sh : Shadow) (w : WindowNo) : Nat := sh.windows[w][5].toNat
/-- The writer mask permits the tag (R10). -/
def Shadow.windowWriter (sh : Shadow) (w : WindowNo) (t : Tag) : Bool := sh.windows[w][6].getLsbD t.val
/-- The reader mask permits the tag (R10). -/
def Shadow.windowReader (sh : Shadow) (w : WindowNo) (t : Tag) : Bool := sh.windows[w][7].getLsbD t.val

/-- The route of a notice code is ALERT: its byte is 1, and any other value masks the kind (R158). -/
def Shadow.routed (sh : Shadow) (code : Fin 16) : Bool := sh.routes[code] == 1

/-! ### Axles and bogies -/

/-- The numbers 0 to 7, lowest first. -/
def upTo8 : List (Fin 8) := [0, 1, 2, 3, 4, 5, 6, 7]

/-- The numbers 0 to 3, lowest first. -/
def upTo4 : List (Fin 4) := [0, 1, 2, 3]

/-- The numbers 0 to 15, lowest first. -/
def upTo16 : List (Fin 16) := [0, 1, 2, 3, 4, 5, 6, 7, 8, 9, 10, 11, 12, 13, 14, 15]

/-- The bogie lies within the bogie count of the shadow. -/
def Shadow.counts (sh : Shadow) (b : BogieNo) : Bool := decide (b.val < sh.bogieCount)

/-- The slot number of an axle entry (Table 11-5). -/
def Slot.code : Slot → Nat
  | .a => 0
  | .b => 1

/-- The enabled axle that names the bogie and the slot, if there is one (R67). -/
def Shadow.axleAt (sh : Shadow) (b : BogieNo) (slot : Slot) : Option AxleNo :=
  upTo8.find? fun n => sh.axleEnabled n && sh.axles[n][1].toNat == b.val && sh.axleSlot n == slot.code

/-- Vref as it is used: 0 while it is unset (R39). -/
def State.vref (s : State) : Nat := s.intake.vref.getD 0

/-- Bogie b's standing request (R141). -/
def State.standing (s : State) (b : BogieNo) : Request := s.supervision[b].standing

/-- The four standing requests. -/
def State.allStanding (s : State) : Vector Request 4 := s.supervision.map Supervision.standing

/-- The mode is RUN or FALLBACK. -/
def State.active (s : State) : Bool := decide (s.control.mode ≠ .setup)

/-- Every bogie within the bogie count has the standing mode. -/
def State.allStand (s : State) (m : DemandMode) : Bool :=
  upTo4.all fun b => !s.shadow.counts b || decide ((s.standing b).mode = m)

/-! ### Bogie sets -/

/-- No bogie is in the set. -/
def BogieSet.isEmpty (x : BogieSet) : Bool := !(x[0] || x[1] || x[2] || x[3])

/-- The lowest-numbered bogie of the set. -/
def BogieSet.lowest (x : BogieSet) : Option BogieNo := upTo4.find? fun b => x[b]

/-- The empty set. -/
def BogieSet.none : BogieSet := Vector.replicate 4 false

/-! ### Notices (R154 to R157) -/

/-- The place of a kind in the table: its code less 1. -/
def NoticeKind.slot : NoticeKind → Fin 15
  | .rollback => 0
  | .refLost => 1
  | .memoryFault => 2
  | .demandLate => 3
  | .brakeShortfall => 4
  | .sandEmpty => 5
  | .startBlocked => 6
  | .persistentSlip => 7
  | .axleStale => 8
  | .slipEntry => 9
  | .sandLow => 10
  | .recordRejected => 11
  | .accessRefused => 12
  | .seqGap => 13
  | .configRejected => 14

/-- An entry after a raise (R155). -/
def Notice.raised (n : Notice) (index : Byte) (now : Word) : Notice :=
  if n.pending then
    { n with
      count := if n.count = 255 then 255 else n.count + 1
      latestIndex := index
      latestTime := now }
  else
    { pending := true
      count := 1
      firstIndex := index
      latestIndex := index
      firstTime := now
      latestTime := now }

/-- A notice is raised at the present time (R155). -/
def raise (k : NoticeKind) (index : Nat) (s : State) : State :=
  s.withNotices (s.notices.set k.slot (s.notices[k.slot].raised (BitVec.ofNat 8 index) s.timeBase))

/-- The kinds whose bit is set are acknowledged; bit 0 acknowledges nothing (R156). -/
def acknowledge (mask : Half) (s : State) : State :=
  s.withNotices (Vector.ofFn fun i : Fin 15 => if mask.getLsbD (i.val + 1) then Notice.clear else s.notices[i])

/-- The top notice code: the lowest pending code, or 0 (R157). -/
def topNotice (t : Vector Notice 15) : Nat :=
  match t.toList.findIdx? Notice.pending with
  | some i => i + 1
  | none => 0

/-! ### The output lines (R76, R158) -/

/-- The level of cut line k (R76). -/
def cutLevel (s : State) (k : Fin 4) : Bool :=
  match s.control.mode with
  | .setup => false
  | .run =>
    decide (s.hold.latch ≠ .clear) ||
      upTo8.any fun n => decide (s.axles[n].state = .slip) && s.shadow.axleCutLine n == k.val
  | .fallback => true

/-- The level of ALERT: some pending kind is routed to it (R158). -/
def alertLevel (s : State) : Bool :=
  (List.finRange 15).any fun i => s.notices[i].pending && s.shadow.routed i.succ

/-- The line levels that belong to a state. -/
def lineLevels (s : State) : Lines where
  cut := Vector.ofFn fun k => cutLevel s k
  alert := alertLevel s

/-- The lines follow the state at the event that changes it (R76, R77, R158; log 17). -/
def settle (s : State) : State :=
  s.withLines (lineLevels s)

/-- The end of every command: the next state, its lines settled. -/
def done (s : State) : Host.Outcome State Fault Refusal :=
  .next (settle s)

/-! ### The arbiter; joining the queue and the rewrite set (R123, R126, R127) -/

/-- The table of R127: what issues next, from the queue, the rewrite set and the streak as they stand. -/
def Emission.choice (e : Emission) : Option Choice :=
  match BogieSet.lowest e.rewriteSet with
  | none => if e.queue.isEmpty then none else some .head
  | some b => if e.queue.isEmpty || decide (e.streak < 2) then some (.rewrite b) else some .head

/-- The arbiter at an event: it decides if the D-port is free and no decision stands (R127; log 9). -/
def Emission.arbitrate (e : Emission) : Emission :=
  { e with decision := if e.inFlight.isNone && e.decision.isNone then e.choice else e.decision }

/-- The queue holds six entries (R124). -/
def Emission.full (e : Emission) : Bool :=
  decide (6 ≤ e.queue.length)

/-- An entry joins the queue as its youngest (R123); an idle arbiter decides (R127). -/
def enqueue (x : Entry) (s : State) : State :=
  s.withEmission (Emission.arbitrate { s.emission with queue := s.emission.queue ++ [x] })

/-- A rewrite of bogie b is requested (R126): b joins the set, except in SETUP; an idle arbiter decides (R127). -/
def requestRewrite (b : BogieNo) (s : State) : State :=
  if s.active then
    s.withEmission (Emission.arbitrate { s.emission with rewriteSet := s.emission.rewriteSet.set b true })
  else s

/-- A rewrite of every bogie within the bogie count is requested (R126). -/
def requestAllRewrites (s : State) : State :=
  upTo4.foldl (fun s b => if s.shadow.counts b then requestRewrite b s else s) s

/-! ### Answering the U-port (R4, R5) -/

/-- The access is answered and the bus is free. -/
def answer (tag : Tag) (a : Answer) (data : Option (List Byte)) (s : State) : State :=
  s.withBus { access := none, answer := some { tag := tag, answer := a, data := data } }

/-- The access stays in progress: a non-posted entry of it has joined the queue (R5). -/
def holdBus (x : Access) (s : State) : State :=
  s.withBus { access := some x, answer := none }

end Sys2Proof.Machine
end

