-- ==== Sys2Proof/Machine/Operands.lean ====
section
/-! DEFINITION. How an access is located and classed (R6 to R9, R164, R165), and how the bytes of records are read
and judged (R26, R80, R142, Tables 11-1 to 11-3). -/

namespace Sys2Proof.Machine

/-! ### Codes of enumerated fields (R169) -/

def Direction.code : Direction → Byte
  | .fwd => 0
  | .rev => 1

/-- 0 FWD, 1 REV; judged images hold nothing else (R142). -/
def Direction.ofCode (b : Byte) : Direction :=
  if b = 0 then .fwd else .rev

def Direction.opposite : Direction → Direction
  | .fwd => .rev
  | .rev => .fwd

def DemandMode.code : DemandMode → Byte
  | .coast => 0
  | .drive => 1
  | .brake => 2
  | .hold => 3

/-- 0 COAST, 1 DRIVE, 2 BRAKE, 3 HOLD; judged images hold nothing else (R142). -/
def DemandMode.ofCode (b : Byte) : DemandMode :=
  if b = 0 then .coast else if b = 1 then .drive else if b = 2 then .brake else .hold

/-- 0 GOOD, 1 NOISY, 2 DROPOUT; judged images hold nothing else (R26). -/
def Quality.ofCode (b : Byte) : Quality :=
  if b = 0 then .good else if b = 1 then .noisy else .dropout

/-- A sensed direction: 0 FWD, 1 REV, 2 UNKNOWN, which is no direction (Table 11-2). -/
def sensedDirection (b : Byte) : Option Direction :=
  if b = 0 then some .fwd else if b = 1 then some .rev else none

def AdhesionState.code : AdhesionState → Byte
  | .grip => 0
  | .creep => 1
  | .slip => 2
  | .recover => 3
  | .stale => 4

def Gate.code : Gate → Byte
  | .opened => 0
  | .closed => 1

def Latch.code : Latch → Byte
  | .clear => 0
  | .latched => 1
  | .settling => 2

def SanderState.code : SanderState → Byte
  | .off => 0
  | .on => 1
  | .dwell => 2
  | .pause => 3
  | .empty => 4

def DeviceMode.code : DeviceMode → Byte
  | .setup => 0
  | .run => 1
  | .fallback => 2

def FallbackCause.code : FallbackCause → Byte
  | .none => 0
  | .refLost => 1
  | .memoryFault => 2

/-! ### Records -/

/-- The request a demand record carries (Table 11-1, as written by the host). -/
def Request.ofRecord (r : Record) : Request where
  mode := DemandMode.ofCode r[0]
  direction := Direction.ofCode r[1]
  driverSand := r[2].getLsbD 0
  isolateA := r[2].getLsbD 1
  isolateB := r[2].getLsbD 2
  gradient := r[3]
  tractionA := (le16 r[4] r[5]).toNat
  tractionB := (le16 r[6] r[7]).toNat
  brake := (le16 r[8] r[9]).toNat
  sequence := r[14]

/-- The host flags byte of a request (Table 11-1). -/
def Request.flags (q : Request) : Byte :=
  BitVec.ofNat 8 (q.driverSand.toNat + 2 * q.isolateA.toNat + 4 * q.isolateB.toNat)

/-- The traction request of a slot. -/
def Request.traction (q : Request) : Slot → Nat
  | .a => q.tractionA
  | .b => q.tractionB

/-- The request isolates the slot (R67). -/
def Request.isolates (q : Request) : Slot → Bool
  | .a => q.isolateA
  | .b => q.isolateB

/-- The values of a feedback record (Table 11-3). -/
def FeedbackValues.ofRecord (r : Record) : FeedbackValues where
  controller := if r[1] = 0 then .ready else .fault
  availableA := (le16 r[2] r[3]).toNat
  availableB := (le16 r[4] r[5]).toNat
  achievedA := (le16 r[6] r[7]).toInt
  achievedB := (le16 r[8] r[9]).toInt

/-- The wheel speed of a speed record (Table 11-2). -/
def recordSpeed (r : Record) : Nat :=
  (le16 r[4] r[5]).toNat

/-! ### Judging commit images -/

/-- The four checks of a SPEED commit image for axle n (R26). -/
def judgeSpeed (n : AxleNo) (r : Record) : Bool :=
  r[0].toNat == n.val && decide (r[1].toNat ≤ 2) && decide (r[2].toNat ≤ 2) && decide (recordSpeed r ≤ 30000)

/-- The four checks of a FEEDBACK commit image for bogie b (R80). -/
def judgeFeedback (b : BogieNo) (r : Record) : Bool :=
  let f := FeedbackValues.ofRecord r
  r[0].toNat == b.val && decide (r[1].toNat ≤ 1) &&
    decide (f.availableA ≤ 1000) && decide (f.availableB ≤ 1000) &&
    decide (-1000 ≤ f.achievedA ∧ f.achievedA ≤ 1000) && decide (-1000 ≤ f.achievedB ∧ f.achievedB ≤ 1000)

/-- The traction request of a slot is within the slot's limit: the configured maximum effort of the axle there, or 0
for an empty slot (R142). -/
def tractionFits (sh : Shadow) (b : BogieNo) (slot : Slot) (traction : Nat) : Bool :=
  match sh.axleAt b slot with
  | some n => decide (traction ≤ sh.maximumEffort n)
  | none => traction == 0

/-- The field checks of a DEMAND commit image for bogie b (R142). -/
def judgeDemandFields (sh : Shadow) (b : BogieNo) (r : Record) : Bool :=
  let q := Request.ofRecord r
  decide (r[0].toNat ≤ 3) && decide (r[1].toNat ≤ 1) && decide (r[2].toNat < 8) &&
    tractionFits sh b .a q.tractionA && tractionFits sh b .b q.tractionB &&
    decide (q.brake ≤ sh.brakeLimit b)

/-- Committed mode and direction against another bogie's standing request (R143). -/
def conflicts (q other : Request) : Bool :=
  match q.mode with
  | .drive =>
    decide (other.mode = .brake) || (decide (other.mode = .drive) && decide (other.direction ≠ q.direction))
  | .brake =>
    decide (other.mode = .drive) || (decide (other.mode = .brake) && decide (other.direction ≠ q.direction))
  | .coast => false
  | .hold => false

/-- The cross-bogie rule (R143). -/
def judgeDemandAgainst (s : State) (b : BogieNo) (q : Request) : Bool :=
  upTo4.all fun c => decide (c = b) || !s.shadow.counts c || !conflicts q (s.standing c)

/-- A DEMAND commit image passes R142 and R143. -/
def judgeDemand (s : State) (b : BogieNo) (r : Record) : Bool :=
  judgeDemandFields s.shadow b r && judgeDemandAgainst s b (Request.ofRecord r)

/-! ### Locating an access -/

/-- The base of the control page (R164). -/
def State.pageBase (s : State) : Nat :=
  s.control.pagesel.val * 0x40000 + 0x3FC00

/-- The offset of an address in the control page, if it lies there (R164). -/
def pageOffset (s : State) (a : Address) : Option Nat :=
  if s.pageBase ≤ a.toNat ∧ a.toNat < s.pageBase + 0x300 then some (a.toNat - s.pageBase) else none

/-- Window w is enabled for matching and covers the address (R9). -/
def Shadow.windowCovers (sh : Shadow) (w : WindowNo) (a : Address) : Bool :=
  decide (4 ≤ sh.windowSizeCode w ∧ sh.windowSizeCode w ≤ 16 ∧
    sh.windowBase w ≤ a.toNat ∧ a.toNat < sh.windowBase w + 2 ^ sh.windowSizeCode w)

/-- The enabled window that covers the address (R9); RUN validation leaves at most one (R149). -/
def Shadow.windowAt (sh : Shadow) (a : Address) : Option WindowNo :=
  upTo16.find? fun w => sh.windowCovers w a

/-- The window an access is matched against: none in SETUP (R9). -/
def matchedWindow (s : State) (a : Address) : Option WindowNo :=
  if s.active then s.shadow.windowAt a else none

/-- The kinds of record window (R9). -/
inductive RecordKind where
  | demand
  | speed
  | feedback
deriving DecidableEq, Repr

/-- The record kind of a window; a GUARD window has none (Table 11-4). -/
def Shadow.recordKind (sh : Shadow) (w : WindowNo) : Option RecordKind :=
  match sh.windowKind w with
  | 1 => some .demand
  | 2 => some .speed
  | 3 => some .feedback
  | _ => none

/-- The record number of an address in window w (R9). -/
def Shadow.recordNumber (sh : Shadow) (w : WindowNo) (a : Address) : Nat :=
  (a.toNat - sh.windowBase w) / 16

/-- The implied index of an address in window w: a bogie or axle number (R9). -/
def Shadow.impliedIndex (sh : Shadow) (w : WindowNo) (a : Address) : Nat :=
  sh.windowFirst w + sh.recordNumber w a

/-- The address of the record that covers an address; a base is a multiple of 16 (R9). -/
def recordAddress (a : Address) : Address :=
  BitVec.ofNat 24 (a.toNat / 16 * 16)

/-- The byte offset of an address in its record (R9). -/
def recordOffset (a : Address) : Nat :=
  a.toNat % 16

/-- How many records a record window holds (R149). -/
def Shadow.windowRecords (sh : Shadow) (w : WindowNo) : Nat :=
  2 ^ (sh.windowSizeCode w - 4)

/-- The address of bogie b's demand record: the record of a DEMAND window whose implied index is b (R130). -/
def Shadow.demandRecordAddress (sh : Shadow) (b : BogieNo) : Address :=
  match upTo16.find? fun w =>
      decide (4 ≤ sh.windowSizeCode w ∧ sh.windowSizeCode w ≤ 16) && sh.windowKind w == 1 &&
        decide (sh.windowFirst w ≤ b.val ∧ b.val < sh.windowFirst w + sh.windowRecords w) with
  | some w => BitVec.ofNat 24 (sh.windowBase w + 16 * (b.val - sh.windowFirst w))
  | none => 0

/-- The number of the window whose record lies at an address, for MEMORY_FAULT (R138); every record burst's address
lies in one (log 14). -/
def Shadow.windowNumber (sh : Shadow) (a : Address) : Nat :=
  match sh.windowAt a with
  | some w => w.val
  | none => 0

/-! ### The treatment of an access (R7) -/

/-- A place in the staging store (R13). -/
inductive Place where
  | demand (bogie : BogieNo)
  | speed (axle : AxleNo)
  | feedback (bogie : BogieNo)
deriving DecidableEq, Repr

/-- The staging slot of a record window's address (R13): implied indices lie below the counts (R149); any other
value is read modulo the table's size (log 14). -/
def Shadow.placeAt (sh : Shadow) (w : WindowNo) (k : RecordKind) (a : Address) : Place :=
  match k with
  | .demand => .demand (Fin.ofNat 4 (sh.impliedIndex w a))
  | .speed => .speed (Fin.ofNat 8 (sh.impliedIndex w a))
  | .feedback => .feedback (Fin.ofNat 4 (sh.impliedIndex w a))

/-- How a write is treated. -/
inductive WriteTreatment where
  | misaligned
  | page (offset : Nat)
  | maskRefused
  | staging (place : Place)
  | commit (place : Place) (window : WindowNo)
  | pass
deriving DecidableEq, Repr

/-- The treatment of a write (R6, R7, R15). -/
def classifyWrite (s : State) (tag : Tag) (a : Address) (size : AccessSize) : WriteTreatment :=
  if !alignedAccess a size then .misaligned
  else match pageOffset s a with
    | some off => .page off
    | none =>
      match matchedWindow s a with
      | none => .pass
      | some w =>
        if !s.shadow.windowWriter w tag then .maskRefused
        else match s.shadow.recordKind w with
          | none => .pass
          | some k =>
            if recordOffset a + size.bytes = 16 then .commit (s.shadow.placeAt w k a) w
            else .staging (s.shadow.placeAt w k a)

/-- How a read is treated. -/
inductive ReadTreatment where
  | misaligned
  | page (offset : Nat)
  | maskRefused
  | pass
deriving DecidableEq, Repr

/-- The treatment of a read (R6, R7, R19). -/
def classifyRead (s : State) (tag : Tag) (a : Address) (size : AccessSize) : ReadTreatment :=
  if !alignedAccess a size then .misaligned
  else match pageOffset s a with
    | some off => .page off
    | none =>
      match matchedWindow s a with
      | none => .pass
      | some w => if s.shadow.windowReader w tag then .pass else .maskRefused

/-! ### Staging slots (R13) -/

/-- The content of a slot. -/
def Staging.slot (g : Staging) : Place → Record
  | .demand b => g.demand[b]
  | .speed n => g.speed[n]
  | .feedback b => g.feedback[b]

/-- The store with another record in a slot. -/
def Staging.put (g : Staging) (p : Place) (r : Record) : Staging :=
  match p with
  | .demand b => { g with demand := g.demand.set b r }
  | .speed n => { g with speed := g.speed.set n r }
  | .feedback b => { g with feedback := g.feedback.set b r }

/-- The slot's content with an access's bytes laid over it: what a staging write stores and what a commit judges
(R14, R15). -/
def slotImage (s : State) (p : Place) (a : Address) (size : AccessSize) (d : Word) : Record :=
  writeBytes (s.staging.slot p) (recordOffset a) size d

end Sys2Proof.Machine
end

