-- ==== Sys2Proof/Machine/Flags.lean ====
section
/-! DEFINITION. Masks, flag bytes and the byte images the part lays over records and reads: byte 11 of an emitted
record, the part-owned bytes of speed and feedback records, the device status record and the notice entries
(R34, R75, R85, R133, R160, R169). -/

namespace Sys2Proof.Machine

/-- The bit vector whose bit i is `p i`. -/
def maskOf : (n : Nat) → (Fin n → Bool) → BitVec n
  | 0, _ => 0#0
  | n + 1, p => BitVec.cons (p (Fin.last n)) (maskOf n fun i => p i.castSucc)

/-! ### Byte 11 of an emitted record (R75, R133) -/

/-- The eight flags of byte 11, bit 0 first (Table 11-1). -/
structure EmittedFlags where
  slipA : Bool
  slipB : Bool
  stale : Bool
  late : Bool
  fallback : Bool
  rollback : Bool
  gateClosed : Bool
  shortfall : Bool
deriving DecidableEq, Repr

def EmittedFlags.byte (f : EmittedFlags) : Byte :=
  BitVec.ofNat 8 (f.slipA.toNat + 2 * f.slipB.toNat + 4 * f.stale.toNat + 8 * f.late.toNat
    + 16 * f.fallback.toNat + 32 * f.rollback.toNat + 64 * f.gateClosed.toNat + 128 * f.shortfall.toNat)

/-- The axle in a slot of bogie b is in the state. -/
def slotIn (s : State) (b : BogieNo) (slot : Slot) (x : AdhesionState) : Bool :=
  match s.shadow.axleAt b slot with
  | some n => decide (s.axles[n].state = x)
  | none => false

/-- The flags of an emission for bogie b, but for the shortfall, which the blend decides (R75, R133). -/
def emittedFlags (s : State) (b : BogieNo) (shortfall : Bool) : EmittedFlags where
  slipA := slotIn s b .a .slip
  slipB := slotIn s b .b .slip
  stale := slotIn s b .a .stale || slotIn s b .b .stale
  late := s.supervision[b].late
  fallback := decide (s.control.mode = .fallback)
  rollback := decide (s.hold.latch ≠ .clear)
  gateClosed := decide (s.hold.gate = .closed)
  shortfall := shortfall

/-! ### Part-owned bytes -/

/-- The part-owned bytes of axle n's speed record as they stand: 3 and 6 to 13 (R34). -/
def speedOwned (s : State) (n : AxleNo) : List (Option Byte) :=
  let x := s.axles[n]
  let t := stampOr0 x.lastArrival
  let slip := BitVec.ofInt 16 x.slip
  let acc := BitVec.ofInt 16 x.acceleration
  let v := BitVec.ofNat 16 s.vref
  [none, none, none, some x.state.code, none, none,
    some (byteOf t 0), some (byteOf t 1), some (byteOf slip 0), some (byteOf slip 1),
    some (byteOf acc 0), some (byteOf acc 1), some (byteOf v 0), some (byteOf v 1), none, none]

/-- The part-owned bytes of bogie b's feedback record as they stand: 10 to 13 (R85). -/
def feedbackOwned (s : State) (b : BogieNo) : List (Option Byte) :=
  let x := s.feedback[b]
  let t := stampOr0 x.lastArrival
  let g := BitVec.ofNat 16 x.granted
  [none, none, none, none, none, none, none, none, none, none,
    some (byteOf t 0), some (byteOf t 1), some (byteOf g 0), some (byteOf g 1), none, none]

/-- A record with owned bytes laid over it and its check made valid (R3, R135). -/
def fillRecord (r : Record) (owned : List (Option Byte)) : Record :=
  (Vector.ofFn fun i : Fin 16 => (owned.getD i.val none).getD r[i]).set 15 (~~~ r[14])

/-! ### Status and notice layouts (Tables 11-8 and 11-9) -/

/-- An enabled axle is not STALE; none is fresh in SETUP (R43). -/
def freshMask (s : State) : Byte :=
  maskOf 8 fun n => s.active && s.shadow.axleEnabled n && decide (s.axles[n].state ≠ .stale)

/-- An enabled axle is STALE; the mask reads 0 in SETUP (R43). -/
def staleMask (s : State) : Byte :=
  maskOf 8 fun n => s.active && s.shadow.axleEnabled n && decide (s.axles[n].state = .stale)

/-- An enabled axle is in SLIP; the mask reads 0 in SETUP (R63). -/
def slipMask (s : State) : Byte :=
  maskOf 8 fun n => s.active && s.shadow.axleEnabled n && decide (s.axles[n].state = .slip)

/-- The persistent flags (R63). -/
def persistentMask (s : State) : Byte :=
  maskOf 8 fun n => s.active && s.axles[n].persistent

/-- Late bogies in bits 0 to 3, the rewrite set in bits 4 to 7 (R126, R147). -/
def lateAndRewriteMask (s : State) : Byte :=
  (maskOf 4 fun b => s.emission.rewriteSet[b]) ++ (maskOf 4 fun b => s.active && s.supervision[b].late)

/-- The pending set: bit k for code k, bit 0 clear (R157). -/
def pendingSet (t : Vector Notice 15) : Half :=
  (maskOf 15 fun i => t[i].pending) ++ (0#1)

/-- The device status record as it stands: 32 bytes (R160, Table 11-8). -/
def deviceStatus (s : State) : List Byte :=
  let v := BitVec.ofNat 16 s.vref
  let p := pendingSet s.notices
  let k := s.sand.sanders
  [s.control.mode.code, BitVec.ofNat 8 s.control.rejectReason.val, BitVec.ofNat 8 (topNotice s.notices),
    s.hold.latch.code, s.hold.gate.code, BitVec.ofNat 8 (6 - s.emission.queue.length),
    s.control.fallbackCause.code, freshMask s,
    slipMask s, staleMask s, lateAndRewriteMask s, persistentMask s,
    byteOf v 0, byteOf v 1, byteOf p 0, byteOf p 1] ++
  [byteOf s.timeBase 0, byteOf s.timeBase 1, byteOf s.timeBase 2, byteOf s.timeBase 3,
    k[0].state.code, k[1].state.code, k[2].state.code, k[3].state.code,
    byteOf k[0].budget 0, byteOf k[0].budget 1, byteOf k[1].budget 0, byteOf k[1].budget 1,
    byteOf k[2].budget 0, byteOf k[2].budget 1, byteOf k[3].budget 0, byteOf k[3].budget 1]

/-- A notice table entry as it reads: 16 bytes (Table 11-9). -/
def noticeBytes (s : State) (i : Fin 15) : List Byte :=
  let n := s.notices[i]
  [BitVec.ofNat 8 (i.val + 1), BitVec.ofNat 8 n.pending.toNat, n.count, n.firstIndex,
    n.latestIndex, 0, 0, 0,
    byteOf n.firstTime 0, byteOf n.firstTime 1, byteOf n.firstTime 2, byteOf n.firstTime 3,
    byteOf n.latestTime 0, byteOf n.latestTime 1, byteOf n.latestTime 2, byteOf n.latestTime 3]

end Sys2Proof.Machine
end

