-- ==== Sys2Proof/Machine/Sand.lean ====
section
/-! DEFINITION. Sanders and the sand budget (07): causes, the sander states' transitions at an event, the hill-start
window, consumption and refill. -/

namespace Sys2Proof.Machine

/-- The state with another sander record for bogie b. -/
def setSander (b : BogieNo) (x : Sander) (s : State) : State :=
  s.withSand { s.sand with sanders := s.sand.sanders.set b x }

/-! ### Causes (R109) -/

/-- Causes 1 and 2 are inhibited: Vref is below the standstill speed, or the mode is FALLBACK (R109). -/
def sandInhibited (s : State) : Bool :=
  decide (s.vref < s.shadow.standstillSpeed) || decide (s.control.mode = .fallback)

/-- Cause 2 of bogie b: an axle of a bogie in b's slip-sand mask is in SLIP and that bogie stands in DRIVE or BRAKE
(R109). -/
def slipCause (s : State) (standing : Vector Request 4) (b : BogieNo) : Bool :=
  upTo8.any fun n =>
    let c := s.shadow.axleBogie n
    decide (s.axles[n].state = .slip) && s.shadow.counts c && s.shadow.sandsFor b c &&
      (decide (standing[c].mode = .drive) || decide (standing[c].mode = .brake))

/-- Some cause of bogie b is standing: present and not inhibited (R109). -/
def causeStands (s : State) (standing : Vector Request 4) (b : BogieNo) : Bool :=
  s.shadow.counts b &&
    ((standing[b].driverSand && !sandInhibited s) ||
      (slipCause s standing b && !sandInhibited s) ||
      decide (s.hold.latch ≠ .clear) ||
      (s.sand.windowOpen && decide (s.control.mode ≠ .fallback)))

/-! ### Transitions (R112 to R117, R119) -/

/-- The sander enters ON from OFF or PAUSE and requests a rewrite, unless its own bogie's burst is issuing
(R112, R115, R119). -/
def sanderEnterOn (issuing : Option BogieNo) (b : BogieNo) (s : State) : State :=
  let t := setSander b
    { s.sand.sanders[b] with
      state := .on
      runTimer := some s.timeBase
      runOverdue := false
      pauseTimer := none } s
  if issuing = some b then t else requestRewrite b t

/-- The sander enters PAUSE (R114). -/
def sanderEnterPause (b : BogieNo) (s : State) : State :=
  setSander b
    { s.sand.sanders[b] with
      state := .pause
      runTimer := none
      runOverdue := false
      dwellTimer := none
      pauseTimer := some s.timeBase } s

/-- The sander enters OFF, its timers stopped (R113, R115). -/
def sanderEnterOff (b : BogieNo) (s : State) : State :=
  setSander b
    { s.sand.sanders[b] with
      state := .off
      runTimer := none
      runOverdue := false
      dwellTimer := none
      pauseTimer := none } s

/-- The sander enters EMPTY, its timers stopped (R117). -/
def sanderEnterEmpty (b : BogieNo) (s : State) : State :=
  setSander b
    { s.sand.sanders[b] with
      state := .empty
      runTimer := none
      runOverdue := false
      dwellTimer := none
      pauseTimer := none } s

/-- A sander in ON loses its last standing cause: DWELL, or OFF with a sand dwell of 0 (R113). -/
def sanderLoseCause (b : BogieNo) (s : State) : State :=
  if s.shadow.sandDwell = 0 then sanderEnterOff b s
  else setSander b { s.sand.sanders[b] with state := .dwell, dwellTimer := some s.timeBase } s

/-- A sander in DWELL regains a cause (R113). -/
def sanderRegainCause (b : BogieNo) (s : State) : State :=
  setSander b { s.sand.sanders[b] with state := .on, dwellTimer := none } s

/-- The sander of bogie b makes its transition at an event, if the event gives it one (R110, R112 to R115). -/
def sanderEvent (standing : Vector Request 4) (issuing : Option BogieNo) (b : BogieNo) (s : State) : State :=
  if s.active then
    let x := s.sand.sanders[b]
    match x.state with
    | .off => if causeStands s standing b then sanderEnterOn issuing b s else s
    | .on =>
      if x.runOverdue && decide (s.hold.latch = .clear) then sanderEnterPause b s
      else if causeStands s standing b then s
      else sanderLoseCause b s
    | .dwell =>
      if x.runOverdue && decide (s.hold.latch = .clear) then sanderEnterPause b s
      else if causeStands s standing b then sanderRegainCause b s
      else s
    | .pause =>
      if s.shadow.counts b && decide (s.hold.latch ≠ .clear) then sanderEnterOn issuing b s else s
    | .empty => s
  else s

/-- Every sander makes its transition at an event (R110). -/
def sandersEvent (standing : Vector Request 4) (issuing : Option BogieNo) (s : State) : State :=
  upTo4.foldl (fun s b => sanderEvent standing issuing b s) s

/-- Every sander makes its transition at an event outside a burst's issue (R110; log 13). -/
def sandersReact (s : State) : State :=
  sandersEvent s.allStanding none s

/-! ### The hill-start window (R111) -/

/-- The largest gradient among the requests of the bogies within the bogie count (R94, R111); -128 is the least
gradient there is. -/
def steepest (sh : Shadow) (standing : Vector Request 4) : Int :=
  upTo4.foldl (fun g b => if sh.counts b then max g standing[b].gradient.toInt else g) (-128)

/-- A burst of the request opens the hill-start window, or restarts it (R111); `standing` has the carried request in
its bogie's place. -/
def windowOpens (s : State) (standing : Vector Request 4) (q : Request) : Bool :=
  s.active && decide (q.mode = .drive) && decide (s.hold.gate = .closed) && !s.sand.usedSinceClosing &&
    decide ((s.shadow.hillStartGrade : Int) ≤ steepest s.shadow standing)

/-- The hill-start window opens where R111 requires it at the issue of a burst. -/
def openWindow (standing : Vector Request 4) (q : Request) (s : State) : State :=
  if windowOpens s standing q then
    s.withSand
      { s.sand with
        windowOpen := true
        windowTimer := some s.timeBase
        usedSinceClosing := true }
  else s

/-! ### The budget (R116 to R118) -/

/-- A fall of a unit that leaves the budget at 0: SAND_EMPTY, and EMPTY outside SETUP (R116, R117; log 10). -/
def sandExhausted (b : BogieNo) (s : State) : State :=
  let t := raise .sandEmpty b.val s
  if t.active then sanderEnterEmpty b t else t

/-- The fall of one unit of bogie b's budget (R116). A budget of 0 has no unit to lose (log 10). -/
def budgetFall (b : BogieNo) (s : State) : State :=
  let x := s.sand.sanders[b]
  let before := x.budget.toNat
  let s1 := setSander b
    { x with
      accumulator := x.accumulator - 10000
      budget := BitVec.ofNat 16 (before - 1) } s
  let s2 :=
    if s.shadow.sandLow b ≤ before ∧ before - 1 < s.shadow.sandLow b ∧ before ≠ 0 then raise .sandLow b.val s1
    else s1
  if before = 1 then sandExhausted b s2 else s2

/-- A refill of bogie b's budget (R118). -/
def refill (b : BogieNo) (value : Half) (s : State) : State :=
  let t := setSander b { s.sand.sanders[b] with budget := value } s
  if !s.active then t
  else if value = 0 then sanderEnterEmpty b t
  else if s.sand.sanders[b].state = .empty then
    sanderEvent t.allStanding none b (sanderEnterOff b t)
  else t

/-- The sanders at RUN entry: OFF, or EMPTY where the budget is 0; budgets and accumulators kept (R122). -/
def Sander.atRunEntry (x : Sander) : Sander :=
  { Sander.reset with
    state := if x.budget = 0 then .empty else .off
    budget := x.budget
    accumulator := x.accumulator }

/-- The sanders at SETUP entry: OFF; budgets and accumulators kept (R122). -/
def Sander.atSetupEntry (x : Sander) : Sander :=
  { Sander.reset with
    budget := x.budget
    accumulator := x.accumulator }

/-- The sanders at RACKRST: OFF; budgets kept (R122). -/
def Sander.atRackReset (x : Sander) : Sander :=
  { Sander.reset with budget := x.budget }

end Sys2Proof.Machine
end

