-- ==== Sys2Proof/Machine/Hold.lean ====
section
/-! DEFINITION. Rollback protection and the hill-start gate (06): grade effort, the gate, the release wait, rollback
detection and the latch. -/

namespace Sys2Proof.Machine

/-! ### Counted feedback (R84) -/

/-- The counted values of bogie b: those of the latest feedback while it is present, fresh and READY, and zeros
otherwise (R84). Feedback is fresh while its freshness timer runs (R83). -/
def counted (s : State) (b : BogieNo) : FeedbackValues :=
  let zero : FeedbackValues :=
    { controller := .ready
      availableA := 0
      availableB := 0
      achievedA := 0
      achievedB := 0 }
  match s.feedback[b].latest with
  | some f => if s.feedback[b].freshness.isSome && decide (f.controller = .ready) then f else zero
  | none => zero

/-- The electric available value of a slot. -/
def FeedbackValues.available (f : FeedbackValues) : Slot → Nat
  | .a => f.availableA
  | .b => f.availableB

/-- The achieved motor effort of a slot. -/
def FeedbackValues.achieved (f : FeedbackValues) : Slot → Int
  | .a => f.achievedA
  | .b => f.achievedB

/-! ### The gate (R94 to R97) -/

/-- Grade effort from the standing requests (R94). -/
def gradeEffort (s : State) : Nat :=
  let g := steepest s.shadow s.allStanding
  if g ≤ 0 then 0 else s.shadow.mass * g.toNat * 981 / 10000

/-- The counted achieved effort of one slot, 0 where it is empty (R96). -/
def achievedIn (s : State) (b : BogieNo) (slot : Slot) : Int :=
  if (s.shadow.axleAt b slot).isSome then (counted s b).achieved slot else 0

/-- The achieved sum over the occupied slots of the bogies within the bogie count (R96). -/
def achievedSum (s : State) : Int :=
  (upTo4.map fun b => if s.shadow.counts b then achievedIn s b .a + achievedIn s b .b else 0).sum

/-- The three conditions under which a closed gate opens at an evaluation (R96). -/
def gateMayOpen (s : State) : Bool :=
  s.allStand .drive && decide (s.hold.latch = .clear) &&
    (gradeEffort s == 0 || decide ((gradeEffort s : Int) ≤ achievedSum s))

/-- An evaluation of the gate (R96); opening it stops the release wait (R99). -/
def evaluateGate (s : State) : State :=
  if s.active && decide (s.hold.gate = .closed) && gateMayOpen s then
    s.withHold { s.hold with gate := .opened, releaseWait := none }
  else s

/-- A closing of the gate (R95, R111): CLOSED, blocked reported clear, used since closing clear. The release wait is
the caller's (R99). -/
def closeGate (s : State) : State :=
  (s.withHold { s.hold with gate := .closed, blockedReported := false }).withSand
    { s.sand with usedSinceClosing := false }

/-- The three things that hold together while the release wait runs (R99). -/
def releaseWaitHolds (s : State) : Bool :=
  s.active && decide (s.hold.gate = .closed) && s.allStand .drive

/-- The release wait after an event: stopped when the three fail, started by the event that makes them hold, and
left as it was otherwise (R99). `before` says whether they held before the event. -/
def updateReleaseWait (before : Bool) (s : State) : State :=
  if !releaseWaitHolds s then s.withHold { s.hold with releaseWait := none }
  else if before then s
  else s.withHold { s.hold with releaseWait := some s.timeBase }

/-! ### Rollback detection and the latch (R101 to R104) -/

/-- A stored sample is a rollback detection (R101). -/
def rollbackDetected (s : State) (quality : Quality) (sensed : Option Direction) (speed : Nat) : Bool :=
  s.active && decide (quality = .good) && decide (sensed = some s.hold.direction.opposite) &&
    decide (s.shadow.rollbackSpeed ≤ speed) && decide (s.hold.latch ≠ .latched)

/-- A latching on a sample of axle n (R102): the latch, the notice, the closing of the gate with the release wait
restarted if it may run (R99), the rewrites, and the sanders' rollback cause (R110). -/
def latchRollback (n : AxleNo) (s : State) : State :=
  let s1 := s.withHold
    { s.hold with
      latch := .latched
      held := BogieSet.none
      settling := none
      settled := false }
  let s2 := closeGate (raise .rollback n.val s1)
  let s3 := updateReleaseWait false s2
  sandersReact (requestAllRewrites s3)

/-- The latch compared with Vref at an evaluation (R103). -/
def compareLatch (s : State) : State :=
  if s.active then
    match s.hold.latch with
    | .latched =>
      if s.vref < s.shadow.standstillSpeed then
        s.withHold { s.hold with latch := .settling, settling := some s.timeBase, settled := false }
      else s
    | .settling =>
      if s.shadow.standstillSpeed ≤ s.vref then
        s.withHold { s.hold with latch := .latched, settling := none, settled := false }
      else s
    | .clear => s
  else s

/-- Every bogie within the bogie count is in the held-bogies set (R104). -/
def allHeld (s : State) : Bool :=
  upTo4.all fun b => !s.shadow.counts b || s.hold.held[b]

/-- The latch enters CLEAR (R104), and the sanders lose their rollback cause (R110). -/
def clearLatch (s : State) : State :=
  sandersReact (s.withHold
    { s.hold with
      latch := .clear
      held := BogieSet.none
      settling := none
      settled := false })

/-- A HOLD burst of bogie b is issued while the latch is LATCHED or SETTLING: b is held, and a set latch that has
settled and has every bogie held enters CLEAR (R104). -/
def holdBogie (b : BogieNo) (s : State) : State :=
  if s.hold.latch = .clear then s
  else
    let t := s.withHold { s.hold with held := s.hold.held.set b true }
    if t.hold.settled && decide (t.hold.latch = .settling) && allHeld t then clearLatch t else t

/-- Stage 7 of R131: the gate is evaluated, a HOLD burst closes it and holds its bogie, and the release wait follows
(R96, R97, R99, R104). `before` says whether the release wait's conditions held before the issue. -/
def holdStage (b : BogieNo) (q : Request) (before : Bool) (s : State) : State :=
  let s1 := evaluateGate s
  let s2 := if q.mode = .hold then holdBogie b (closeGate s1) else s1
  updateReleaseWait before s2

end Sys2Proof.Machine
end

