-- ==== Sys2Proof/Machine/Adhesion.lean ====
section
/-! DEFINITION. Speed intake, the reference speed and the adhesion states (02, 03): sequence classes, storing, Vref,
the estimator, slip and thresholds, and the transitions of an axle. -/

namespace Sys2Proof.Machine

/-- The state with another record for axle n. -/
def setAxle (n : AxleNo) (x : Axle) (s : State) : State :=
  s.withAxles (s.axles.set n x)

/-! ### Sequence classes (R27, R81) -/

/-- The classes of a record by its sequence (R27). -/
inductive SequenceClass where
  | first
  | duplicate
  | inOrder
  | gap
deriving DecidableEq, Repr

/-- The class of sequence `q` against the last sequence (R27, R81). -/
def sequenceClass (last : Option Byte) (q : Byte) : SequenceClass :=
  match last with
  | none => .first
  | some l => if q = l then .duplicate else if q = l + 1 then .inOrder else .gap

/-! ### Storing a sample (R31, stages 1 to 3) -/

/-- The axle record with a sample stored (R31, R32). -/
def Axle.store (x : Axle) (speed : Nat) (quality : Quality) (now : Word) : Axle :=
  { x with
    ring := x.ring.set x.position speed
    position := x.position + 1
    fill := if x.fill < 8 then x.fill + 1 else 8
    latest := some { speed := speed, quality := quality }
    lastArrival := some now
    staleness := some now }

/-! ### The reference speed (R35 to R39) -/

/-- The vehicle mode from the standing requests: BRAKE, DRIVE, or COAST (R36). -/
def vehicleMode (s : State) : DemandMode :=
  if upTo4.any fun b => s.shadow.counts b && decide ((s.standing b).mode = .brake) then .brake
  else if upTo4.any fun b => s.shadow.counts b && decide ((s.standing b).mode = .drive) then .drive
  else .coast

/-- Axle m's candidate speed at an evaluation made while a sample of axle n is stored (R35). -/
def candidateOf (s : State) (n m : AxleNo) : Option Nat :=
  match s.axles[m].latest with
  | some x =>
    if s.shadow.axleEnabled m && (decide (s.axles[m].state ≠ .stale) || decide (m = n)) &&
        decide (x.quality = .good) then
      some x.speed
    else none
  | none => none

/-- The candidate speeds, axle by axle (R35). -/
def candidateSpeeds (s : State) (n : AxleNo) : List Nat :=
  upTo8.filterMap fun m => candidateOf s n m

/-- The candidate speed the evaluation uses (R36): none while the candidate set is empty. -/
def candidateSpeed (s : State) (n : AxleNo) : Option Nat :=
  match vehicleMode s with
  | .drive => (candidateSpeeds s n).min?
  | _ => (candidateSpeeds s n).max?

/-- Vref and its elapsed counter moved toward candidate speed `c` (R37, R38). -/
def Intake.toward (x : Intake) (slope c : Nat) : Intake :=
  match x.vref with
  | none => { vref := some c, elapsed := 0 }
  | some v =>
    let d := max c v - min c v
    let allowed := slope * x.elapsed / 100000
    if d ≤ allowed then { vref := some c, elapsed := 0 }
    else if 1 ≤ allowed then { vref := some (if v < c then v + allowed else v - allowed), elapsed := 0 }
    else x

/-- Stage 4 of R31: the evaluation of Vref (R39), with the latch's comparison (R103) and the standstill inhibit of
the sanders (R110). -/
def evaluateVref (n : AxleNo) (s : State) : State :=
  let t := match candidateSpeed s n with
    | some c => s.withIntake (s.intake.toward s.shadow.slope c)
    | none => s
  sandersReact (compareLatch t)

/-! ### The estimator (R47, R48) -/

/-- The estimator's sum: h_k times the speed k samples back, the newest in the slot before the ring position
(R47). -/
def estimatorSum (sh : Shadow) (x : Axle) : Int :=
  (upTo8.map fun k => sh.coefficient k * (x.ring[x.position - 1 - k] : Int)).sum

/-- Saturation to the signed 16-bit range (R48). -/
def saturate16 (v : Int) : Int :=
  if 32767 < v then 32767 else if v < -32768 then -32768 else v

/-- The acceleration of an axle after a store (R48): 0 while warming; otherwise the sum shifted right arithmetically by
15 - G places, which rounds toward minus infinity, and saturated. -/
def estimate (sh : Shadow) (x : Axle) : Int :=
  if x.fill < 8 then 0 else saturate16 (Int.fdiv (estimatorSum sh x) (2 ^ (15 - sh.gain)))

/-! ### Slip and thresholds (R49 to R51) -/

/-- The slip magnitude for a standing mode (R49); a value below 0 counts as 0. -/
def slipMagnitude (m : DemandMode) (slip : Int) : Nat :=
  match m with
  | .drive => slip.toNat
  | .brake => (-slip).toNat
  | .coast => slip.natAbs
  | .hold => slip.natAbs

/-- The acceleration criterion for a standing mode (R49). -/
def accelerationCriterion (m : DemandMode) (acceleration : Int) (a : Nat) : Bool :=
  match m with
  | .drive => decide ((a : Int) < acceleration)
  | .brake => decide (acceleration < -(a : Int))
  | .coast => false
  | .hold => false

/-- The creep threshold at the present Vref (R50). -/
def creepThreshold (s : State) : Nat :=
  s.shadow.creepAbsolute + s.vref * s.shadow.creepFraction / 32768

/-- The slip threshold at the present Vref (R50). -/
def slipThreshold (s : State) : Nat :=
  s.shadow.slipAbsolute + s.vref * s.shadow.slipFraction / 32768

/-- The standing mode of an axle: that of its bogie (R45). -/
def axleMode (s : State) (n : AxleNo) : DemandMode :=
  (s.standing (s.shadow.axleBogie n)).mode

/-- The slip magnitude of axle n with its record as it stands (R49). -/
def axleMagnitude (s : State) (n : AxleNo) : Nat :=
  slipMagnitude (axleMode s n) s.axles[n].slip

/-- The slip condition of axle n with its record as it stands (R51). -/
def slipCondition (s : State) (n : AxleNo) : Bool :=
  decide (slipThreshold s ≤ axleMagnitude s n) ||
    accelerationCriterion (axleMode s n) s.axles[n].acceleration s.shadow.accelerationThreshold

/-- The creep condition of axle n with its record as it stands (R51). -/
def creepCondition (s : State) (n : AxleNo) : Bool :=
  decide (creepThreshold s ≤ axleMagnitude s n) && !slipCondition s n

/-! ### Transitions (R52 to R60) -/

/-- A time joins the slip-entry list, which keeps the newest four (R55). -/
def joinEntries (l : List Word) (t : Word) : List Word :=
  if l.length < 4 then l ++ [t] else l.drop 1 ++ [t]

/-- The persistent test (R55): four times, the newest within the window of the oldest. -/
def persistentTest (window : Nat) (l : List Word) : Bool :=
  match l with
  | [t0, _, _, t3] => decide (interval t3 t0 ≤ window)
  | _ => false

/-- The axle record at an entry into SLIP at a time, with the standing mode (R54, R55). -/
def Axle.enterSlip (x : Axle) (sh : Shadow) (m : DemandMode) (now : Word) : Axle :=
  let effort := x.lastEmitted.natAbs
  let l := joinEntries x.slipEntries now
  { x with
    state := .slip
    entryEffort := effort
    cutLevel := if m = .drive then effort * sh.cutFraction / 32768 else 0
    slipEntry := some now
    slipEntries := l
    persistent := x.persistent || persistentTest sh.persistentWindow l }

/-- Axle n enters SLIP (R54), with its notices, the rewrite of its bogie and the sanders' slip cause (R110). -/
def enterSlip (n : AxleNo) (s : State) : State :=
  let x := s.axles[n].enterSlip s.shadow (axleMode s n) s.timeBase
  let s1 := raise .slipEntry n.val (setAxle n x s)
  let s2 :=
    if persistentTest s.shadow.persistentWindow x.slipEntries then raise .persistentSlip n.val s1 else s1
  sandersReact (requestRewrite (s.shadow.axleBogie n) s2)

/-- The axle record at an entry into RECOVER from a base at a time (R56, R59, R60). -/
def Axle.enterRecover (x : Axle) (base : Nat) (now : Word) : Axle :=
  { x with state := .recover, ceilingBase := base, recoverEntry := some now }

/-- The three tests that take an axle from SLIP to RECOVER (R56). -/
def slipEnds (s : State) (n : AxleNo) : Bool :=
  let x := s.axles[n]
  let a : Int := s.shadow.accelerationThreshold
  (match x.slipEntry with
    | some t => decide (s.shadow.slipDwell ≤ interval s.timeBase t)
    | none => false) &&
    decide (axleMagnitude s n < creepThreshold s) && decide (-a ≤ x.acceleration ∧ x.acceleration ≤ a)

/-- The transition of stage 4 of R46, from the state the axle is in. -/
def transition (n : AxleNo) (s : State) : State :=
  let x := s.axles[n]
  match x.state with
  | .grip =>
    if slipCondition s n then enterSlip n s
    else if creepCondition s n then
      setAxle n { x with state := .creep, entryEffort := x.lastEmitted.natAbs } s
    else s
  | .creep =>
    if slipCondition s n then enterSlip n s
    else if axleMagnitude s n < creepThreshold s - s.shadow.hysteresis then setAxle n { x with state := .grip } s
    else s
  | .slip =>
    if slipEnds s n then sandersReact (setAxle n (x.enterRecover x.cutLevel s.timeBase) s) else s
  | .recover => if slipCondition s n then enterSlip n s else s
  | .stale => setAxle n (x.enterRecover (s.shadow.staleLimit n) s.timeBase) s

/-- The adhesion unit's evaluation of a stored sample of axle n (R46): acceleration and slip into the record, then the
transition. -/
def evaluateAxle (n : AxleNo) (speed : Nat) (s : State) : State :=
  let x := s.axles[n]
  transition n (setAxle n
    { x with
      acceleration := estimate s.shadow x
      slip := (speed : Int) - (s.vref : Int) } s)

/-- A stored sample of axle n: stages 1 to 5 of R31, with rollback detection after the adhesion unit's evaluation
(R31, R101; log 12). -/
def storeSample (n : AxleNo) (speed : Nat) (quality : Quality) (sensed : Option Direction) (s : State) : State :=
  let s1 := setAxle n (s.axles[n].store speed quality s.timeBase) s
  let s2 := evaluateAxle n speed (evaluateVref n s1)
  if rollbackDetected s2 quality sensed speed then latchRollback n s2 else s2

/-- Applying an accepted SPEED record of axle n (R27 to R30). -/
def applySpeed (n : AxleNo) (r : Record) (s : State) : State :=
  let c := sequenceClass s.axles[n].lastSequence r[14]
  if c = .duplicate then s
  else
    let s1 := setAxle n { s.axles[n] with lastSequence := some r[14] } s
    let s2 := if c = .gap then raise .seqGap n.val s1 else s1
    match Quality.ofCode r[2] with
    | .dropout => s2
    | .good => storeSample n (recordSpeed r) .good (sensedDirection r[1]) s2
    | .noisy => storeSample n (recordSpeed r) .noisy (sensedDirection r[1]) s2

/-- The record of an axle at its staleness expiry (R33, R58). -/
def Axle.expire (x : Axle) : Axle :=
  { x with
    staleness := none
    fill := 0
    lastSequence := none
    state := .stale
    acceleration := 0 }

/-- The recovery of bogie b from LATE (R60): every axle of b that is not STALE enters RECOVER from base 0. The axles
that leave SLIP take the sanders' slip cause with them (R110). -/
def recoverFromLate (b : BogieNo) (s : State) : State :=
  sandersReact (s.withAxles (Vector.ofFn fun n : Fin 8 =>
    if s.shadow.axleEnabled n && decide (s.shadow.axleBogie n = b) && decide (s.axles[n].state ≠ .stale) then
      s.axles[n].enterRecover 0 s.timeBase
    else s.axles[n]))

/-- Every enabled axle is STALE (R40). -/
def allStale (s : State) : Bool :=
  upTo8.all fun n => !s.shadow.axleEnabled n || decide (s.axles[n].state = .stale)

/-- The persistent flags of the named axles are cleared and their lists emptied (R62). -/
def clearPersistentFlags (mask : Byte) (s : State) : State :=
  s.withAxles (Vector.ofFn fun n : Fin 8 =>
    if mask.getLsbD n.val then { s.axles[n] with persistent := false, slipEntries := [] } else s.axles[n])

end Sys2Proof.Machine
end

