-- ==== Sys2Proof/Machine/Emission.lean ====
section
/-! DEFINITION. Effort shaping, brake blending, the composer and the issue of demand bursts (04, 05, 08.4): what an
emitted record commands, and the stages of one issue. -/

namespace Sys2Proof.Machine

/-! ### Effort shaping (R68 to R72) -/

/-- The effective maximum effort of axle n (R62, R68). -/
def effectiveMaximum (s : State) (n : AxleNo) : Nat :=
  if s.axles[n].persistent then s.shadow.maximumEffort n * s.shadow.persistentCap / 32768
  else s.shadow.maximumEffort n

/-- The RECOVER ceiling of axle n at the present time: base plus ramp, limited to the configured maximum (R71). -/
def recoverCeiling (s : State) (n : AxleNo) : Nat :=
  let x := s.axles[n]
  let elapsed := match x.recoverEntry with
    | some t => interval s.timeBase t
    | none => 0
  min (x.ceilingBase + s.shadow.rampRate * elapsed / 10000) (s.shadow.maximumEffort n)

/-- The ceiling of axle n (R70, R71). -/
def ceiling (s : State) (n : AxleNo) : Nat :=
  match s.axles[n].state with
  | .grip => s.shadow.maximumEffort n
  | .creep => s.axles[n].entryEffort
  | .slip => s.axles[n].cutLevel
  | .recover => recoverCeiling s n
  | .stale => s.shadow.staleLimit n

/-- The shaped motor command of a slot (R67, R69). -/
def shapedMotor (s : State) (b : BogieNo) (q : Request) (slot : Slot) : Nat :=
  match s.shadow.axleAt b slot with
  | none => 0
  | some n => if q.isolates slot then 0 else min (q.traction slot) (min (effectiveMaximum s n) (ceiling s n))

/-! ### Brake blending (R87 to R91) -/

/-- The axle in a slot is eligible for electric braking (R87). -/
def eligible (s : State) (b : BogieNo) (q : Request) (slot : Slot) : Bool :=
  match s.shadow.axleAt b slot with
  | none => false
  | some n =>
    !q.isolates slot &&
      (decide (s.axles[n].state = .grip) || decide (s.axles[n].state = .creep) ||
        decide (s.axles[n].state = .recover)) &&
      decide (s.shadow.fadeEnd ≤ s.vref)

/-- A raw available value faded by Vref (R87). -/
def faded (s : State) (raw : Nat) : Nat :=
  if s.vref < s.shadow.fadeStart then
    raw * (s.vref - s.shadow.fadeEnd) / (s.shadow.fadeStart - s.shadow.fadeEnd)
  else raw

/-- The availability of a slot (R87). -/
def availability (s : State) (b : BogieNo) (q : Request) (slot : Slot) : Nat :=
  match s.shadow.axleAt b slot with
  | none => 0
  | some n =>
    if eligible s b q slot then
      let a := min (faded s ((counted s b).available slot)) (effectiveMaximum s n)
      if s.axles[n].state = .recover then min a (recoverCeiling s n) else a
    else 0

/-- A BRAKE composition (R88 to R90): the electric total, the shares of the slots, the friction and the shortfall. -/
structure Blend where
  electric : Nat
  shareA : Nat
  shareB : Nat
  friction : Nat
  shortfall : Nat
deriving DecidableEq, Repr

/-- An axle in a slot of bogie b is in SLIP, isolated or not (R89). -/
def bogieSlips (s : State) (b : BogieNo) : Bool :=
  slotIn s b .a .slip || slotIn s b .b .slip

/-- The friction of a BRAKE composition with electric total `e` (R89). -/
def brakeFriction (s : State) (b : BogieNo) (r e : Nat) : Nat :=
  let f := min (r - e) (s.shadow.frictionMaximum b)
  if bogieSlips s b then f * s.shadow.slideRelease b / 32768 else f

/-- The blend for bogie b and its carried request (R88 to R90). -/
def blend (s : State) (b : BogieNo) (q : Request) : Blend :=
  let aA := availability s b q .a
  let aB := availability s b q .b
  let total := aA + aB
  let e := min q.brake total
  let eA := if total = 0 then 0 else e * aA / total
  let eB := if total = 0 then 0 else e * aB / total
  let remainder := e - (eA + eB)
  let f := brakeFriction s b q.brake e
  { electric := e
    shareA := if eligible s b q .a then eA + remainder else eA
    shareB := if eligible s b q .a then eB else eB + remainder
    friction := f
    shortfall := q.brake - e - f }

/-- The friction of a HOLD composition, and of the rollback emission (R91, R105). -/
def holdFriction (s : State) (b : BogieNo) (q : Request) : Nat :=
  min (s.shadow.frictionMaximum b) (max (s.shadow.holdEffort b) q.brake)

/-! ### The composer (R132, R133) -/

/-- What an emission commands: the motors of the slots, the friction, the electric total for the granted share (R92),
and whether the shortfall exceeds the tolerance (R90). -/
structure Commands where
  motorA : Int
  motorB : Int
  friction : Nat
  granted : Nat
  shortfall : Bool
deriving DecidableEq, Repr

/-- An emission with its motors at 0. -/
def Commands.frictionOnly (f : Nat) : Commands where
  motorA := 0
  motorB := 0
  friction := f
  granted := 0
  shortfall := false

/-- None of the composer's overrides applies: not FALLBACK, the latch CLEAR, the bogie not LATE (R132). -/
def overridden (s : State) (b : BogieNo) : Bool :=
  decide (s.control.mode = .fallback) || decide (s.hold.latch ≠ .clear) || s.supervision[b].late

/-- The composer's choice for bogie b and the carried request: the first of R132's conditions that applies. -/
def compose (s : State) (b : BogieNo) (q : Request) : Commands :=
  if s.control.mode = .fallback then
    Commands.frictionOnly (min (s.shadow.frictionMaximum b) (max (s.shadow.fallbackEffort b) q.brake))
  else if s.hold.latch ≠ .clear then Commands.frictionOnly (holdFriction s b q)
  else if s.supervision[b].late then Commands.frictionOnly (s.shadow.fallbackEffort b)
  else match q.mode with
    | .coast => Commands.frictionOnly 0
    | .drive =>
      { motorA := shapedMotor s b q .a
        motorB := shapedMotor s b q .b
        friction := if s.hold.gate = .closed then s.shadow.holdEffort b else 0
        granted := 0
        shortfall := false }
    | .brake =>
      let x := blend s b q
      { motorA := -(x.shareA : Int)
        motorB := -(x.shareB : Int)
        friction := x.friction
        granted := x.electric
        shortfall := decide (s.shadow.shortfallTolerance b < x.shortfall) }
    | .hold => Commands.frictionOnly (holdFriction s b q)

/-- The sander command of byte 10: 0 OFF, 1 FRONT, 2 REAR (R120). -/
def sanderCommand (s : State) (b : BogieNo) : Byte :=
  if s.sand.sanders[b].state = .on ∨ s.sand.sanders[b].state = .dwell then
    match s.hold.direction with
    | .fwd => 1
    | .rev => 2
  else 0

/-- The emitted record (R133), with the check a finished burst leaves (R134). -/
def emittedRecord (s : State) (b : BogieNo) (q : Request) (c : Commands) : Record :=
  let mA := BitVec.ofInt 16 c.motorA
  let mB := BitVec.ofInt 16 c.motorB
  let f := BitVec.ofNat 16 c.friction
  let t := stamp s.timeBase
  #v[q.mode.code, q.direction.code, q.flags, q.gradient,
    byteOf mA 0, byteOf mA 1, byteOf mB 0, byteOf mB 1,
    byteOf f 0, byteOf f 1, sanderCommand s b, (emittedFlags s b c.shortfall).byte,
    byteOf t 0, byteOf t 1, q.sequence, ~~~ q.sequence]

/-! ### The stages of an issue (R131) -/

/-- Stage 1: b leaves the rewrite set; the streak rises for a rewrite and returns to 0 for a queue entry
(R128, R129). -/
def leaveRewriteSet (b : BogieNo) (rewrite : Bool) (s : State) : State :=
  s.withEmission
    { s.emission with
      rewriteSet := s.emission.rewriteSet.set b false
      streak := if rewrite then s.emission.streak + 1 else 0 }

/-- The standing requests with the carried request in b's place (R110). -/
def standingWith (s : State) (b : BogieNo) (q : Request) : Vector Request 4 :=
  s.allStanding.set b q

/-- Stages 2 and 3: the vehicle direction, the hill-start window and the sanders (R100, R110, R111). -/
def prepareIssue (b : BogieNo) (q : Request) (s : State) : State :=
  let s1 := s.withHold { s.hold with direction := q.direction }
  let standing := standingWith s1 b q
  sandersEvent standing (some b) (openWindow standing q s1)

/-- The composition made the shaper's report for the axle in a slot: its ramp is complete (R72). -/
def rampComplete (s : State) (b : BogieNo) (q : Request) (slot : Slot) (n : AxleNo) : Bool :=
  decide (s.control.mode = .run) && !overridden s b && decide (q.mode = .drive) &&
    decide (s.axles[n].state = .recover) && !q.isolates slot && decide (q.traction slot ≤ recoverCeiling s n)

/-- An axle's record after its slot's command is composed: the last emitted effort (R61), and GRIP if its ramp is
complete (R57, R72). -/
def Axle.noteEmission (x : Axle) (motor : Int) (complete : Bool) : Axle :=
  { x with
    lastEmitted := motor
    state := if complete then .grip else x.state }

/-- Stage 5, the axles of b (R61, R72). -/
def noteMotors (b : BogieNo) (q : Request) (c : Commands) (s : State) : State :=
  s.withAxles (Vector.ofFn fun n : Fin 8 =>
    if s.shadow.axleAt b .a = some n then s.axles[n].noteEmission c.motorA (rampComplete s b q .a n)
    else if s.shadow.axleAt b .b = some n then s.axles[n].noteEmission c.motorB (rampComplete s b q .b n)
    else s.axles[n])

/-- Stage 5, the granted share of b (R92). -/
def grantShare (b : BogieNo) (c : Commands) (s : State) : State :=
  s.withFeedback (s.feedback.set b { s.feedback[b] with granted := c.granted })

/-- The shortfall notice of a composition (R90). -/
def noteShortfall (b : BogieNo) (c : Commands) (s : State) : State :=
  if c.shortfall then raise .brakeShortfall b.val s else s

/-- Stage 6: the standing request of b becomes the carried request (R145); for a rewrite it is that already. -/
def makeStanding (b : BogieNo) (q : Request) (s : State) : State :=
  s.withSupervision (s.supervision.set b { s.supervision[b] with standing := q })

/-- The state in which an issue composes its record: stages 1 to 3 of R131. No entry that could issue a demand burst
stands in the queue in SETUP (log 18); there stages 2 and 3 are not made. -/
def composingState (b : BogieNo) (q : Request) (rewrite : Bool) (s : State) : State :=
  let s1 := leaveRewriteSet b rewrite s
  if s.active then prepareIssue b q s1 else s1

/-- Stages 5 to 7 of R131, after the composition of `c` in state `s`; `before` says whether the release wait's
conditions held before the issue. -/
def settleIssue (b : BogieNo) (q : Request) (c : Commands) (before : Bool) (s : State) : State :=
  if s.active then
    holdStage b q before (makeStanding b q (grantShare b c (noteMotors b q c (noteShortfall b c s))))
  else noteMotors b q c s

/-- The burst goes out with its record fixed, its first write beginning now (stage 8 of R131, R134). -/
def launch (f : Flight) (s : State) : State :=
  s.withEmission { s.emission with inFlight := some f, decision := none }

/-- The issue of a demand burst for bogie b (R131). -/
def issueDemand (b : BogieNo) (q : Request) (rewrite : Bool) (of : BurstOf) (address : Address) (s : State) : State :=
  let s1 := composingState b q rewrite s
  let c := compose s1 b q
  launch (.burst of address (emittedRecord s1 b q c) 0 s1.timeBase)
    (settleIssue b q c (releaseWaitHolds s) s1)

/-! ### Issuing what the arbiter decided (R127) -/

/-- The head entry issues next: the arbiter has decided so, and the D-port is free. -/
def headMayIssue (e : Emission) : Bool :=
  e.inFlight.isNone && !e.queue.isEmpty && decide (e.decision = some .head)

/-- The bogie whose rewrite issues next: the arbiter has decided so, the D-port is free, and it is in the set. -/
def issuingRewrite (e : Emission) : Option BogieNo :=
  match e.inFlight, e.decision with
  | none, some (.rewrite b) => if e.rewriteSet[b] then some b else none
  | _, _ => none

/-- The bogie whose demand record lies at an address; a DEMAND_COMMIT's address is one (log 14). -/
def Shadow.demandBogie (sh : Shadow) (a : Address) : BogieNo :=
  match sh.windowAt a with
  | some w => Fin.ofNat 4 (sh.impliedIndex w a)
  | none => 0

/-- The bogie whose feedback record lies at an address; a FEEDBACK_RECORD's address is one (log 14). -/
def Shadow.feedbackBogie (sh : Shadow) (a : Address) : BogieNo :=
  match sh.windowAt a with
  | some w => Fin.ofNat 4 (sh.impliedIndex w a)
  | none => 0

/-- The axle whose speed record lies at an address; a SPEED_RECORD's address is one (log 14). -/
def Shadow.speedAxle (sh : Shadow) (a : Address) : AxleNo :=
  match sh.windowAt a with
  | some w => Fin.ofNat 8 (sh.impliedIndex w a)
  | none => 0

/-! ### What the D-port presents (R134, R135) -/

/-- One access of the D-port; `write` is absent for a read. -/
structure PortAccess where
  address : Address
  size : AccessSize
  write : Option Word
deriving DecidableEq, Repr

/-- Write `k + 1` of a bracketed burst: words 3, 0, 1, 2, 3, the check byte equal to the sequence in the first and to
its ones' complement in the last (R134). -/
def burstWrite (address : Address) (r : Record) (k : Fin 5) : PortAccess :=
  let at12 (check : Byte) : PortAccess :=
    { address := address + 12
      size := .word
      write := some (le32 r[12] r[13] r[14] check) }
  match k with
  | 0 => at12 r[14]
  | 1 =>
    { address := address
      size := .word
      write := some (le32 r[0] r[1] r[2] r[3]) }
  | 2 =>
    { address := address + 4
      size := .word
      write := some (le32 r[4] r[5] r[6] r[7]) }
  | 3 =>
    { address := address + 8
      size := .word
      write := some (le32 r[8] r[9] r[10] r[11]) }
  | 4 => at12 (~~~ r[14])

/-- The access of a pass or page entry, exactly as its master presented it (R135); record kinds have none. -/
def Entry.portAccess (x : Entry) : Option PortAccess :=
  match x.kind with
  | .demandCommit _ => none
  | .speedRecord _ => none
  | .feedbackRecord _ => none
  | .passRead size => some { address := x.address, size := size, write := none }
  | .passWrite size d => some { address := x.address, size := size, write := some d }
  | .pageRead size => some { address := x.address, size := size, write := none }
  | .pageWrite size d => some { address := x.address, size := size, write := some d }

/-- What the D-port presents to memory now (R127, R134, R135). -/
def State.portAccess (s : State) : Option PortAccess :=
  match s.emission.inFlight with
  | none => none
  | some (.access _) => s.emission.queue.head?.bind Entry.portAccess
  | some (.burst _ address r k _) => some (burstWrite address r k)

end Sys2Proof.Machine
end

