-- ==== Sys2Proof/Machine/Snapshots.lean ====
section
/-! DEFINITION. The overlay unit (10.5, 10.6): which reads are enriched, the snapshot of each master, and the values
laid over what memory returns. -/

namespace Sys2Proof.Machine

/-! ### Enriched records (R160, R161) -/

/-- An enriched record that a snapshot can hold, with what it is read from. -/
inductive Enriched where
  | status
  | notice (code : Fin 15)
  | speed (axle : AxleNo)
deriving DecidableEq, Repr

/-- The kind a snapshot of the record carries. -/
def Enriched.kind : Enriched → EnrichedKind
  | .status => .deviceStatus
  | .notice _ => .noticeEntry
  | .speed _ => .speedRecord

/-- The size of an enriched record in bytes (R162). -/
def EnrichedKind.size : EnrichedKind → Nat
  | .deviceStatus => 32
  | .noticeEntry => 16
  | .speedRecord => 16

/-- The enriched record a page offset lies in: the status record or a notice entry of code 1 to 15 (R161). -/
def enrichedInPage (off : Nat) : Option Enriched :=
  if off < 0x20 then some .status
  else if 0x210 ≤ off ∧ off < 0x300 then some (.notice (Fin.ofNat 15 ((off - 0x200) / 16 - 1)))
  else none

/-- The enriched record an address lies in, with that record's address (R160, R161). A speed record is enriched in RUN
and FALLBACK, through its SPEED window. -/
def enrichedAt (s : State) (a : Address) : Option (Enriched × Address) :=
  match pageOffset s a with
  | some off =>
    match enrichedInPage off with
    | some x => some (x, BitVec.ofNat 24 (a.toNat / x.kind.size * x.kind.size))
    | none => none
  | none =>
    match matchedWindow s a with
    | none => none
    | some w =>
      if s.shadow.recordKind w = some .speed then
        some (.speed (Fin.ofNat 8 (s.shadow.impliedIndex w a)), recordAddress a)
      else none

/-- The live values of an enriched record's overlaid bytes (R160). -/
def liveValues (s : State) : Enriched → List (Option Byte)
  | .status => (deviceStatus s).map some
  | .notice i => (noticeBytes s i).map some
  | .speed n => speedOwned s n

/-- A live snapshot of the record (R161). -/
def captureSnapshot (s : State) (x : Enriched) (address : Address) : Snapshot where
  kind := x.kind
  address := address
  values := liveValues s x

/-- The snapshot holds the record: the same kind and address. -/
def Snapshot.holds (p : Snapshot) (x : Enriched) (address : Address) : Bool :=
  decide (p.kind = x.kind) && decide (p.address = address)

/-- An access at an address covers a byte of the snapshot record's last word (R162). -/
def Snapshot.lastWordCovered (p : Snapshot) (a : Address) (size : AccessSize) : Bool :=
  decide (p.kind.size - 4 < a.toNat - p.address.toNat + size.bytes)

/-! ### Reports of accesses (R20, R161, R162) -/

/-- The overlay unit with another snapshot slot for a tag. -/
def setSnapshot (tag : Tag) (p : Option Snapshot) (s : State) : State :=
  s.withOverlay { s.overlay with snapshots := s.overlay.snapshots.set tag p }

/-- The report of a write: it releases its master's snapshot (R162). -/
def reportWrite (tag : Tag) (s : State) : State :=
  setSnapshot tag none s

/-- The slot after a read of an enriched record, given the snapshot the read used: released by a read of the last word
(R162). -/
def keepUnlessLast (p : Snapshot) (a : Address) (size : AccessSize) : Option Snapshot :=
  if p.lastWordCovered a size then none else some p

/-- The snapshot a read of an enriched record uses: the slot's, if it holds the record, and otherwise a live one
(R161). -/
def snapshotFor (s : State) (tag : Tag) (x : Enriched) (address : Address) : Snapshot :=
  match s.overlay.snapshots[tag] with
  | some p => if p.holds x address then p else captureSnapshot s x address
  | none => captureSnapshot s x address

/-- The report of an accepted read, when its entry is taken into the queue: its values are fixed and its master's
snapshot taken, kept or released (R161, R162). -/
def reportRead (tag : Tag) (a : Address) (size : AccessSize) (s : State) : State :=
  match enrichedAt s a with
  | none => s.withOverlay { s.overlay with fixed := none }
  | some (x, address) =>
    let p := snapshotFor s tag x address
    s.withOverlay
      { snapshots := s.overlay.snapshots.set tag (keepUnlessLast p a size)
        fixed := some ((p.values.drop (a.toNat - address.toNat)).take size.bytes) }

/-- The report of a read a mask refused: it takes no snapshot, and releases one of another enriched record or, at the
last word, of the same (R162; log 20). -/
def reportRefusedRead (tag : Tag) (a : Address) (size : AccessSize) (s : State) : State :=
  match enrichedAt s a, s.overlay.snapshots[tag] with
  | some (x, address), some p =>
    if p.holds x address && !p.lastWordCovered a size then s else setSnapshot tag none s
  | _, _ => s

/-! ### Laying values over a read (R160, R161) -/

/-- The bytes of the shadow tables by page offset from 0x040 to 0x19F (R165). -/
def shadowByte (sh : Shadow) (off : Nat) : Byte :=
  if off < 0x0C0 then (sh.windows[Fin.ofNat 16 ((off - 0x040) / 8)])[Fin.ofNat 8 off]
  else if off < 0x100 then (sh.axles[Fin.ofNat 8 ((off - 0x0C0) / 8)])[Fin.ofNat 8 off]
  else if off < 0x140 then (sh.bogies[Fin.ofNat 4 ((off - 0x100) / 16)])[Fin.ofNat 16 off]
  else if off < 0x180 then sh.vehicle[Fin.ofNat 64 off]
  else if off < 0x190 then sh.coefficients[Fin.ofNat 16 off]
  else sh.routes[Fin.ofNat 16 off]

/-- The live overlay of one byte of the page that no snapshot holds: the shadow tables, and the zeros of notice entry
0 (R160). -/
def pageOverlay (s : State) (off : Nat) : Option Byte :=
  if 0x040 ≤ off ∧ off < 0x1A0 then some (shadowByte s.shadow off)
  else if 0x200 ≤ off ∧ off < 0x210 then some 0
  else none

/-- What is laid over the read of a size at an address when memory answers it: the fixed values, or the live overlay
of the page, or nothing. -/
def overlayFor (s : State) (a : Address) (size : AccessSize) : List (Option Byte) :=
  match s.overlay.fixed with
  | some f => f
  | none =>
    match pageOffset s a with
    | some off => (List.range size.bytes).map fun i => pageOverlay s (off + i)
    | none => List.replicate size.bytes none

/-- Memory's bytes with the overlay laid over them. -/
def layOver (values : List (Option Byte)) (bytes : List Byte) : List Byte :=
  List.zipWith (fun o b => o.getD b) values bytes

/-- The snapshots of speed records are emptied at SETUP entry (R163). -/
def dropSpeedSnapshots (s : State) : State :=
  s.withOverlay
    { s.overlay with
      snapshots := s.overlay.snapshots.map fun p =>
        match p with
        | some x => if x.kind = .speedRecord then none else some x
        | none => none }

end Sys2Proof.Machine
end

