-- ==== Sys2Proof/Machine/Modes.lean ====
section
/-! DEFINITION. RUN validation and the mode changes (09.5 to 09.7): RUN entry, SETUP entry, FALLBACK entry and the
decision of a mode request. -/

namespace Sys2Proof.Machine

/-! ### RUN validation (R149) -/

/-- The window entry is enabled in the sense of RUN validation: its size code is not 0 (R149). -/
def Shadow.windowInUse (sh : Shadow) (w : WindowNo) : Bool :=
  decide (sh.windowSizeCode w ≠ 0)

/-- The address range of an enabled window. -/
def Shadow.windowEnd (sh : Shadow) (w : WindowNo) : Nat :=
  sh.windowBase w + 2 ^ sh.windowSizeCode w

/-- Check 1: the counts (R149). -/
def checkCounts (sh : Shadow) : Bool :=
  decide (1 ≤ sh.axleCount ∧ sh.axleCount ≤ 8 ∧ 1 ≤ sh.bogieCount ∧ sh.bogieCount ≤ 4)

/-- A record window's implied indices all lie below its count (R149). -/
def indicesFit (sh : Shadow) (w : WindowNo) : Bool :=
  match sh.recordKind w with
  | some .speed => decide (sh.windowFirst w + sh.windowRecords w ≤ sh.axleCount)
  | some .demand => decide (sh.windowFirst w + sh.windowRecords w ≤ sh.bogieCount)
  | some .feedback => decide (sh.windowFirst w + sh.windowRecords w ≤ sh.bogieCount)
  | none => true

/-- Check 2: the enabled windows one by one (R149). -/
def checkWindows (sh : Shadow) : Bool :=
  upTo16.all fun w =>
    !sh.windowInUse w ||
      (decide (4 ≤ sh.windowSizeCode w ∧ sh.windowSizeCode w ≤ 16) &&
        decide (sh.windowBase w % 2 ^ sh.windowSizeCode w = 0) &&
        decide (1 ≤ sh.windowKind w ∧ sh.windowKind w ≤ 4) && indicesFit sh w)

/-- Check 3: no two enabled windows share an address, and none shares one with the control page (R149). -/
def checkOverlaps (sh : Shadow) (pageBase : Nat) : Bool :=
  upTo16.all fun w =>
    !sh.windowInUse w ||
      (decide (sh.windowEnd w ≤ pageBase ∨ pageBase + 0x300 ≤ sh.windowBase w) &&
        upTo16.all fun v =>
          decide (v = w) || !sh.windowInUse v ||
            decide (sh.windowEnd w ≤ sh.windowBase v ∨ sh.windowEnd v ≤ sh.windowBase w))

/-- How many records of a kind the enabled windows hold for an index (R149). -/
def Shadow.coverage (sh : Shadow) (k : RecordKind) (i : Nat) : Nat :=
  upTo16.countP fun w =>
    sh.windowInUse w && decide (sh.recordKind w = some k) &&
      decide (sh.windowFirst w ≤ i ∧ i < sh.windowFirst w + sh.windowRecords w)

/-- Check 4: every enabled axle and every bogie within the count is covered once (R149). -/
def checkCoverage (sh : Shadow) : Bool :=
  (upTo8.all fun n => !sh.axleEnabled n || sh.coverage .speed n.val == 1) &&
    upTo4.all fun b => !sh.counts b || (sh.coverage .demand b.val == 1 && sh.coverage .feedback b.val == 1)

/-- The bogie and slot bytes of two axle entries agree. -/
def sameSeat (sh : Shadow) (n m : AxleNo) : Bool :=
  sh.axles[n][1] == sh.axles[m][1] && sh.axles[n][2] == sh.axles[m][2]

/-- Check 5: the axle map (R149). -/
def checkAxleMap (sh : Shadow) : Bool :=
  (upTo8.all fun n =>
    !sh.axleEnabled n ||
      (decide (n.val < sh.axleCount) && decide (sh.axles[n][1].toNat < sh.bogieCount) &&
        decide (sh.axleSlot n ≤ 1) &&
        upTo8.all fun m => decide (m = n) || !sh.axleEnabled m || !sameSeat sh n m)) &&
    upTo4.all fun b =>
      !sh.counts b || upTo8.any fun n => sh.axleEnabled n && sh.axles[n][1].toNat == b.val

/-- Check 6: the orderings of the vehicle record (R149). -/
def checkOrderings (sh : Shadow) : Bool :=
  decide (sh.creepAbsolute < sh.slipAbsolute) && decide (sh.creepFraction ≤ sh.slipFraction) &&
    decide (sh.hysteresis < sh.creepAbsolute) && decide (sh.fadeEnd < sh.fadeStart)

/-- The axle entry's ranges, where its enable is not 0 (Table 11-5, R149). -/
def axleEntryInRange (sh : Shadow) (n : AxleNo) : Bool :=
  sh.axles[n][0] == 0 ||
    (sh.axles[n][0] == 1 && decide (sh.axles[n][1].toNat ≤ 3) && decide (sh.axleSlot n ≤ 1) &&
      (decide (sh.axleCutLine n ≤ 3) || sh.axleCutLine n == 255) &&
      decide (1 ≤ sh.maximumEffort n ∧ sh.maximumEffort n ≤ 1000) &&
      decide (sh.staleLimit n ≤ sh.maximumEffort n))

/-- The bogie entry's ranges (Table 11-6, R149). -/
def bogieEntryInRange (sh : Shadow) (b : BogieNo) : Bool :=
  decide (1 ≤ sh.frictionMaximum b ∧ sh.frictionMaximum b ≤ 2000) &&
    decide (1 ≤ sh.brakeLimit b ∧ sh.brakeLimit b ≤ 4000) &&
    decide (sh.holdEffort b ≤ sh.frictionMaximum b) && decide (sh.fallbackEffort b ≤ sh.frictionMaximum b) &&
    decide (sh.slideRelease b ≤ 32767) && decide (sh.shortfallTolerance b ≤ 500) &&
    decide (sh.bogies[b][14].toNat < 16) && sh.bogies[b][15] == 0

/-- The vehicle record's ranges, bytes 0 to 29 (Table 11-7, R149). -/
def vehicleHalvesInRange (sh : Shadow) : Bool :=
  decide (10 ≤ sh.mass) && decide (sh.gain ≤ 8) &&
    decide (1 ≤ sh.creepAbsolute ∧ sh.creepAbsolute ≤ 2000) &&
    decide (1 ≤ sh.slipAbsolute ∧ sh.slipAbsolute ≤ 5000) &&
    decide (sh.creepFraction ≤ 32767) && decide (sh.slipFraction ≤ 32767) && decide (sh.hysteresis ≤ 1000) &&
    decide (1 ≤ sh.accelerationThreshold ∧ sh.accelerationThreshold ≤ 32767) &&
    decide (sh.cutFraction ≤ 32767) && decide (sh.persistentCap ≤ 32767) &&
    decide (1 ≤ sh.slope ∧ sh.slope ≤ 1000) &&
    decide (1 ≤ sh.standstillSpeed ∧ sh.standstillSpeed ≤ 500) &&
    decide (1 ≤ sh.rollbackSpeed ∧ sh.rollbackSpeed ≤ 500) &&
    decide (1 ≤ sh.fadeStart ∧ sh.fadeStart ≤ 30000) && decide (sh.fadeEnd ≤ 30000)

/-- The vehicle record's ranges, bytes 30 to 63: every byte of 30 to 42 is at least 1 but for the grade, at most 127,
and the sand dwell; the rest are zero (Table 11-7, R149). -/
def vehicleBytesInRange (sh : Shadow) : Bool :=
  ([30, 31, 32, 33, 34, 35, 36, 37, 39, 41, 42].all fun i => decide (1 ≤ sh.vehicleByte i)) &&
    decide (sh.hillStartGrade ≤ 127) && (sh.vehicle.toList.drop 43).all fun x => x == 0

/-- Entries 1 to 15 of the route table are 0 or 1 (R149). -/
def routesInRange (sh : Shadow) : Bool :=
  (sh.routes.toList.drop 1).all fun x => x == 0 || x == 1

/-- Check 7: the ranges (R149). -/
def checkRanges (sh : Shadow) : Bool :=
  (upTo8.all fun n => axleEntryInRange sh n) && (upTo4.all fun b => !sh.counts b || bogieEntryInRange sh b) &&
    vehicleHalvesInRange sh && vehicleBytesInRange sh && routesInRange sh

/-- The number of the first failing check, or 0 if every check passes (R149). -/
def validate (sh : Shadow) (pageBase : Nat) : Fin 10 :=
  if !checkCounts sh then 1
  else if !checkWindows sh then 2
  else if !checkOverlaps sh pageBase then 3
  else if !checkCoverage sh then 4
  else if !checkAxleMap sh then 5
  else if !checkOrderings sh then 6
  else if !checkRanges sh then 7
  else 0

/-! ### Mode changes (R150 to R152) -/

/-- The supervision record of bogie b at RUN entry (R150). -/
def Supervision.atRunEntry (sh : Shadow) (now : Word) (b : BogieNo) : Supervision :=
  { Supervision.reset with timer := if sh.counts b then some now else none }

/-- RUN entry (R150): every block takes its RUN-entry values; the Vref elapsed counter is 0 (R41; log 11). -/
def runEntry (s : State) : State :=
  { s with
    control := { s.control with mode := .run, rejectReason := 0, fallbackCause := .none }
    staging := Staging.reset
    axles := Vector.replicate 8 Axle.reset
    intake := Intake.reset
    feedback := Vector.replicate 4 Feedback.reset
    hold := Hold.reset
    sand := { Sand.reset with sanders := s.sand.sanders.map Sander.atRunEntry }
    supervision := Vector.ofFn fun b => Supervision.atRunEntry s.shadow s.timeBase b }

/-- SETUP entry by request (R151): every block takes its SETUP-entry values; the queue and the burst in flight stay,
and with the D-port free the arbiter decides anew from the queue alone (R139; log 9). -/
def setupEntry (s : State) : State :=
  dropSpeedSnapshots
    { s with
      control := { s.control with mode := .setup, rejectReason := 0, fallbackCause := .none }
      axles := Vector.replicate 8 Axle.reset
      intake := Intake.reset
      feedback := Vector.replicate 4 Feedback.reset
      hold := Hold.reset
      sand := { Sand.reset with sanders := s.sand.sanders.map Sander.atSetupEntry }
      supervision := Vector.replicate 4 Supervision.reset
      emission :=
        Emission.arbitrate
          { s.emission with
            rewriteSet := BogieSet.none
            streak := 0
            decision := none } }

/-- FALLBACK entry from RUN (R152): the cause, the rewrites of every bogie and the inhibits on the sanders. -/
def fallbackEntry (cause : FallbackCause) (s : State) : State :=
  sandersReact (requestAllRewrites
    (s.withControl { s.control with mode := .fallback, fallbackCause := cause }))

/-- A refused mode request (R148): the reason and CONFIG_REJECTED. -/
def rejectMode (reason : Fin 10) (s : State) : State :=
  raise .configRejected reason.val (s.withControl { s.control with rejectReason := reason })

/-- A RUN request (R148). -/
def requestRun (s : State) : State :=
  match s.control.mode with
  | .setup =>
    let r := validate s.shadow s.pageBase
    if r = 0 then runEntry s else rejectMode r s
  | .run => rejectMode 9 s
  | .fallback => rejectMode 9 s

/-- The at-rest test of a SETUP request (R148): every standing mode HOLD and, in RUN, Vref below the standstill
speed. -/
def atRest (s : State) : Bool :=
  s.allStand .hold &&
    (decide (s.control.mode = .fallback) || decide (s.vref < s.shadow.standstillSpeed))

/-- A SETUP request (R148). -/
def requestSetup (s : State) : State :=
  if s.active then
    if atRest s then setupEntry s else rejectMode 8 s
  else s

end Sys2Proof.Machine
end

