-- ==== Sys2Proof/Machine/DPort.lean ====
section
/-! DEFINITION. Meanings of D_PORT_ACK, D_PORT_ERR and D_PORT_TIMEOUT: the end of an access, the next write of a burst,
its restart and its final failure (R134 to R138). An answer to an access that is not in flight is disregarded (R136). -/

namespace Sys2Proof.Machine

/-! ### Ends -/

/-- The D-port is free again, the end's other effects having been made, and the arbiter decides (R127; log 9). -/
def freePort (s : State) : State :=
  s.withEmission (Emission.arbitrate { s.emission with inFlight := none, decision := none })

/-- The head entry leaves the queue (R123). -/
def popHead (s : State) : State :=
  s.withEmission { s.emission with queue := s.emission.queue.tail }

/-- The fixed values of a read are used up or discarded (R161). -/
def dropFixed (s : State) : State :=
  s.withOverlay { s.overlay with fixed := none }

/-- The data a read answered ACK returns, given the word memory returned; none for a write (R124, R160). -/
def readData (x : Entry) (d : Word) (s : State) : Option (List Byte) :=
  match x.kind with
  | .passRead size => some (layOver (overlayFor s x.address size) (dataBytes size d))
  | .pageRead size => some (layOver (overlayFor s x.address size) (dataBytes size d))
  | _ => none

/-- The head entry's access ended with an answer: the entry leaves and its master has the answer (R124). -/
def finishAccess (a : Answer) (data : Option (List Byte)) (x : Entry) (s : State) : State :=
  freePort (answer x.tag a data (dropFixed (popHead s)))

/-- The head entry whose burst ended leaves the queue, and a DEMAND_COMMIT's master has its answer (R124). -/
def answerHeadBurst (a : Answer) (x : Entry) (s : State) : State :=
  match x.kind with
  | .demandCommit _ => answer x.tag a none (popHead s)
  | _ => popHead s

/-! ### Failure (R136 to R138) -/

/-- The entry's kind makes the burst a demand burst. -/
def Entry.isDemand (x : Entry) : Bool :=
  match x.kind with
  | .demandCommit _ => true
  | _ => false

/-- In RUN, a lost demand record takes the part to FALLBACK (R138). -/
def memoryLost (s : State) : State :=
  if s.control.mode = .run then fallbackEntry .memoryFault s else s

/-- The final failure of the head entry's burst (R138). -/
def headBurstLost (address : Address) (x : Entry) (s : State) : State :=
  let t := answerHeadBurst .err x (raise .memoryFault (s.shadow.windowNumber address) s)
  freePort (if x.isDemand then memoryLost t else t)

/-- The final failure of a rewrite (R138). -/
def rewriteLost (address : Address) (s : State) : State :=
  freePort (memoryLost (raise .memoryFault (s.shadow.windowNumber address) s))

/-- The burst begins again at write 1 (R137). -/
def restartBurst (of : BurstOf) (address : Address) (record : Record) (s : State) : State :=
  s.withEmission { s.emission with inFlight := some (.burst of address record 0 s.timeBase) }

/-- The head entry with its retry count at 1 (R137). -/
def markRetry (s : State) : State :=
  s.withEmission
    { s.emission with
      queue := match s.emission.queue with
        | x :: rest => { x with retries := 1 } :: rest
        | [] => [] }

/-- The access in flight fails (R137, R138). -/
def failFlight (f : Flight) (s : State) : State :=
  match f with
  | .access _ =>
    match s.emission.queue.head? with
    | some x => finishAccess .err none x s
    | none => freePort s
  | .burst (.rewrite b retries) address record _ _ =>
    if retries = 0 then restartBurst (.rewrite b 1) address record s else rewriteLost address s
  | .burst .head address record _ _ =>
    match s.emission.queue.head? with
    | some x =>
      if x.retries = 0 then restartBurst .head address record (markRetry s) else headBurstLost address x s
    | none => freePort s

/-! ### Success (R134, R135) -/

/-- The write of a burst after write `k + 1` begins (R134). -/
def nextWrite (of : BurstOf) (address : Address) (record : Record) (k : Fin 5) (s : State) : State :=
  s.withEmission { s.emission with inFlight := some (.burst of address record (k + 1) s.timeBase) }

/-- Memory takes the access in flight; `d` is what a read returns (R134, R135). -/
def passFlight (f : Flight) (d : Word) (s : State) : State :=
  match f with
  | .access _ =>
    match s.emission.queue.head? with
    | some x => finishAccess .ack (readData x d s) x s
    | none => freePort s
  | .burst of address record k _ =>
    if k < 4 then nextWrite of address record k s
    else match of with
      | .rewrite _ _ => freePort s
      | .head =>
        match s.emission.queue.head? with
        | some x => freePort (answerHeadBurst .ack x s)
        | none => freePort s

/-! ### Meanings -/

/-- When the access now on the D-port began (R136). -/
def Flight.start : Flight → Word
  | .access t => t
  | .burst _ _ _ _ t => t

/-- The access in flight has gone 64 microseconds without an answer (R136). -/
def portTimeoutDue (s : State) : Bool :=
  match s.emission.inFlight with
  | some f => decide (64 ≤ interval s.timeBase f.start)
  | none => false

/-- The access in flight that an answer is to. An answer to another access, which the timeout has failed already, finds
none and is disregarded (R136; log 22). -/
def answeredFlight (s : State) (began : Option Word) : Option Flight :=
  match s.emission.inFlight with
  | some f => if began = none ∨ began = some f.start then some f else none
  | none => none

/-- D_PORT_ACK (R134 to R136, R124, R127). -/
def execDPortAck (d : Word) (s : State) (began : Option Word := none) : Host.Outcome State Fault Refusal :=
  done (match answeredFlight s began with
    | some f => passFlight f d s
    | none => s)

/-- D_PORT_ERR (R136 to R138, R127). -/
def execDPortErr (s : State) (began : Option Word := none) : Host.Outcome State Fault Refusal :=
  done (match answeredFlight s began with
    | some f => failFlight f s
    | none => s)

/-- D_PORT_TIMEOUT (R136 to R138, R127); before its 64 microseconds it has not come (log 4). -/
def execDPortTimeout (s : State) : Host.Outcome State Fault Refusal :=
  done (if portTimeoutDue s then
    match s.emission.inFlight with
    | some f => failFlight f s
    | none => s
  else s)

end Sys2Proof.Machine
end

