-- ==== Sys2Proof/Machine/Issue.lean ====
section
/-! DEFINITION. Meanings of the arbiter's issues: REWRITE_ISSUE, DEMAND_COMMIT_ISSUE, RECORD_BURST_ISSUE and
PASS_ACCESS_ISSUE (R127 to R135). An issue that the arbiter has not decided has no effect (log 4). -/

namespace Sys2Proof.Machine

/-- The issue of a queue entry sets the streak to 0 (R128, R135). -/
def resetStreak (s : State) : State :=
  s.withEmission { s.emission with streak := 0 }

/-- The issue of a rewrite of bogie b (R130, R131). -/
def issueRewrite (b : BogieNo) (s : State) : State :=
  issueDemand b (s.standing b) true (.rewrite b 0) (s.shadow.demandRecordAddress b) s

/-- The issue of a DEMAND_COMMIT entry's burst (R131). -/
def issueCommit (x : Entry) (snapshot : Record) (s : State) : State :=
  issueDemand (s.shadow.demandBogie x.address) (Request.ofRecord snapshot) false .head x.address s

/-- The issue of a record burst with the record's part-owned bytes filled (R135). -/
def issueRecord (x : Entry) (record : Record) (s : State) : State :=
  launch (.burst .head x.address record 0 s.timeBase) (resetStreak s)

/-- The issue of a pass or page entry's access (R135). -/
def issueAccess (s : State) : State :=
  launch (.access s.timeBase) (resetStreak s)

/-- The entry that issues next, if the arbiter decided for the head (R127). -/
def issuingHead (s : State) : Option Entry :=
  if headMayIssue s.emission then s.emission.queue.head? else none

/-- REWRITE_ISSUE (R130, R131). -/
def execRewriteIssue (s : State) : Host.Outcome State Fault Refusal :=
  done (match issuingRewrite s.emission with
    | some b => issueRewrite b s
    | none => s)

/-- DEMAND_COMMIT_ISSUE (R131, R145). -/
def execDemandCommitIssue (s : State) : Host.Outcome State Fault Refusal :=
  done (match issuingHead s with
    | some x =>
      match x.kind with
      | .demandCommit snapshot => issueCommit x snapshot s
      | _ => s
    | none => s)

/-- RECORD_BURST_ISSUE (R135, R34, R85). -/
def execRecordBurstIssue (s : State) : Host.Outcome State Fault Refusal :=
  done (match issuingHead s with
    | some x =>
      match x.kind with
      | .speedRecord r => issueRecord x (fillRecord r (speedOwned s (s.shadow.speedAxle x.address))) s
      | .feedbackRecord r => issueRecord x (fillRecord r (feedbackOwned s (s.shadow.feedbackBogie x.address))) s
      | _ => s
    | none => s)

/-- PASS_ACCESS_ISSUE (R135). -/
def execPassAccessIssue (s : State) : Host.Outcome State Fault Refusal :=
  done (match issuingHead s with
    | some x =>
      match x.portAccess with
      | some _ => issueAccess s
      | none => s
    | none => s)

end Sys2Proof.Machine
end

