-- ==== Sys2Proof/Machine/Accesses.lean ====
section
/-! DEFINITION. What the access handler does with an access it has classed (01, 11.2, 11.3): staging writes, commits,
pass-through accesses, and reads and writes of the control page. -/

namespace Sys2Proof.Machine

/-! ### Answers that need an entry (R11, R124) -/

/-- A non-posted entry of the access joins the queue and the access keeps the bus (R5, R123). -/
def takeNonPosted (x : Access) (k : EntryKind) (s : State) : State :=
  holdBus x (enqueue { kind := k, address := x.address, tag := x.tag, retries := 0 } s)

/-- A refused access of which the overlay unit hears as a write: ERR and ACCESS_REFUSED (R8, R10). -/
def refuseWrite (tag : Tag) (index : Nat) (s : State) : State :=
  answer tag .err none (raise .accessRefused index (reportWrite tag s))

/-- A pass-through write (R11): a PASS_WRITE entry, or RETRY. -/
def passWriteTreatment (x : Access) (d : Word) (s : State) : State :=
  if s.emission.full then answer x.tag .retry none s
  else takeNonPosted x (.passWrite x.size d) (reportWrite x.tag s)

/-- A pass-through read, and a permitted read of a record window (R11, R19): a PASS_READ entry, or RETRY. -/
def passReadTreatment (x : Access) (s : State) : State :=
  if s.emission.full then answer x.tag .retry none s
  else takeNonPosted x (.passRead x.size) (reportRead x.tag x.address x.size s)

/-! ### Staging and commits (R14 to R18) -/

/-- A staging write (R14): the bytes into the slot, and ACK. -/
def stagingTreatment (x : Access) (d : Word) (p : Place) (s : State) : State :=
  answer x.tag .ack none
    ((reportWrite x.tag s).withStaging (s.staging.put p (slotImage s p x.address x.size d)))

/-- A rejected commit (R16): ERR and RECORD_REJECTED with the window's number. -/
def rejectCommit (tag : Tag) (w : WindowNo) (s : State) : State :=
  answer tag .err none (raise .recordRejected w.val (reportWrite tag s))

/-- Acceptance of a commit, but for what its owner applies (R17): the image into the slot and an entry into the
queue. -/
def acceptCommit (x : Access) (p : Place) (image : Record) (k : EntryKind) (s : State) : State :=
  enqueue { kind := k, address := recordAddress x.address, tag := x.tag, retries := 0 }
    ((reportWrite x.tag s).withStaging (s.staging.put p image))

/-- A SPEED commit of axle n (R16, R17, R26): judged, and if there is room accepted, applied and answered ACK. -/
def speedCommitTreatment (x : Access) (n : AxleNo) (w : WindowNo) (image : Record) (s : State) : State :=
  if !(s.shadow.axleEnabled n && judgeSpeed n image) then rejectCommit x.tag w s
  else if s.emission.full then answer x.tag .retry none s
  else answer x.tag .ack none (applySpeed n image (acceptCommit x (.speed n) image (.speedRecord image) s))

/-- Applying an accepted FEEDBACK record of bogie b (R81, R82). -/
def applyFeedback (b : BogieNo) (r : Record) (s : State) : State :=
  let c := sequenceClass s.feedback[b].lastSequence r[14]
  if c = .duplicate then s
  else
    let s1 := if c = .gap then raise .seqGap (8 + b.val) s else s
    evaluateGate (s1.withFeedback (s1.feedback.set b
      { s1.feedback[b] with
        latest := some (FeedbackValues.ofRecord r)
        lastArrival := some s.timeBase
        lastSequence := some r[14]
        freshness := some s.timeBase }))

/-- A FEEDBACK commit of bogie b (R16, R17, R80): judged, and if there is room accepted, applied and answered ACK. -/
def feedbackCommitTreatment (x : Access) (b : BogieNo) (w : WindowNo) (image : Record) (s : State) : State :=
  if !judgeFeedback b image then rejectCommit x.tag w s
  else if s.emission.full then answer x.tag .retry none s
  else
    answer x.tag .ack none
      (applyFeedback b image (acceptCommit x (.feedback b) image (.feedbackRecord image) s))

/-- Applying an accepted DEMAND commit of bogie b (R144): the timer restarts and a LATE bogie becomes LIVE, its axles
recovering (R60). -/
def applyDemand (b : BogieNo) (s : State) : State :=
  let t := s.withSupervision (s.supervision.set b
    { s.supervision[b] with late := false, timer := some s.timeBase })
  if s.supervision[b].late then recoverFromLate b t else t

/-- A DEMAND commit of bogie b (R16, R17, R142, R143): judged, and if there is room accepted and applied, the access
keeping the bus. -/
def demandCommitTreatment (x : Access) (b : BogieNo) (w : WindowNo) (image : Record) (s : State) : State :=
  if !judgeDemand s b image then rejectCommit x.tag w s
  else if s.emission.full then answer x.tag .retry none s
  else holdBus x (applyDemand b (acceptCommit x (.demand b) image (.demandCommit image) s))

/-- A commit, by the owner of its kind (R16). -/
def commitTreatment (x : Access) (d : Word) (p : Place) (w : WindowNo) (s : State) : State :=
  let image := slotImage s p x.address x.size d
  match p with
  | .speed n => speedCommitTreatment x n w image s
  | .feedback b => feedbackCommitTreatment x b w image s
  | .demand b => demandCommitTreatment x b w image s

/-! ### Control page writes (R8, R165 to R168) -/

/-- What becomes of an aligned page write. -/
inductive PageDecision where
  /-- A PAGE_WRITE entry, if there is room. -/
  | accept
  /-- ERR with no notice (R167). -/
  | refuse
  /-- ERR with ACCESS_REFUSED of an index (R8, R166). -/
  | refuseWithNotice (index : Nat)
deriving DecidableEq, Repr

/-- A control record write that R167 refuses; `off` is the page offset. -/
def controlWriteRefused (off : Nat) (size : AccessSize) (d : Word) : Bool :=
  (decide (off = 0x20) && decide (2 < (byteOf d 0).toNat)) ||
    (decide (size = .byte) && decide (0x24 ≤ off ∧ off < 0x2C))

/-- The decision on a page write (R8, R166, R167). -/
def decidePageWrite (s : State) (tag : Tag) (off : Nat) (size : AccessSize) (d : Word) : PageDecision :=
  if tag ≠ 0 then .refuseWithNotice tag.val
  else if 0x20 ≤ off ∧ off < 0x40 then (if controlWriteRefused off size d then .refuse else .accept)
  else if 0x40 ≤ off ∧ off < 0x1A0 then (if s.active then .refuseWithNotice 0 else .accept)
  else .accept

/-- The shadow with an access's bytes written at a page offset from 0x040 to 0x19F (R166). -/
def Shadow.write (sh : Shadow) (off : Nat) (size : AccessSize) (d : Word) : Shadow :=
  if off < 0x0C0 then
    let w := Fin.ofNat 16 ((off - 0x040) / 8)
    { sh with windows := sh.windows.set w (writeBytes sh.windows[w] (off % 8) size d) }
  else if off < 0x100 then
    let n := Fin.ofNat 8 ((off - 0x0C0) / 8)
    { sh with axles := sh.axles.set n (writeBytes sh.axles[n] (off % 8) size d) }
  else if off < 0x140 then
    let b := Fin.ofNat 4 ((off - 0x100) / 16)
    { sh with bogies := sh.bogies.set b (writeBytes sh.bogies[b] (off % 16) size d) }
  else if off < 0x180 then { sh with vehicle := writeBytes sh.vehicle (off % 64) size d }
  else if off < 0x190 then { sh with coefficients := writeBytes sh.coefficients (off % 16) size d }
  else { sh with routes := writeBytes sh.routes (off % 16) size d }

/-- Byte `i` of the control record as a write at page offset `off` covers it. -/
def coveredByte (off : Nat) (size : AccessSize) (d : Word) (i : Nat) : Option Byte :=
  if off ≤ 0x20 + i ∧ 0x20 + i < off + size.bytes then some (byteOf d (0x20 + i - off)) else none

/-- The refill of bogie b that a control record write carries (R168); a covered field is covered whole, for a
1-byte write to it is refused (R167). -/
def carriedRefill (off : Nat) (size : AccessSize) (d : Word) (b : BogieNo) (s : State) : State :=
  match coveredByte off size d (4 + 2 * b.val), coveredByte off size d (5 + 2 * b.val) with
  | some lo, some hi => refill b (le16 lo hi) s
  | _, _ => s

/-- The mode request that a control record write carries (R168). -/
def carriedModeRequest (off : Nat) (size : AccessSize) (d : Word) (s : State) : State :=
  match coveredByte off size d 0 with
  | some v => if v = 1 then requestRun s else if v = 2 then requestSetup s else s
  | none => s

/-- The acknowledge set that a control record write carries (R156): bits of bytes it does not cover are 0. -/
def carriedAcknowledge (off : Nat) (size : AccessSize) (d : Word) : Half :=
  le16 ((coveredByte off size d 2).getD 0) ((coveredByte off size d 3).getD 0)

/-- The actions of an accepted control record write: the clears, acknowledgements and refills, and then the mode
request (R168). -/
def controlActions (off : Nat) (size : AccessSize) (d : Word) (s : State) : State :=
  let s1 := clearPersistentFlags ((coveredByte off size d 1).getD 0) s
  let s2 := acknowledge (carriedAcknowledge off size d) s1
  let s3 := upTo4.foldl (fun s b => carriedRefill off size d b s) s2
  carriedModeRequest off size d s3

/-- What an accepted page write does in the part when its entry is taken into the queue (R165). -/
def pageActions (off : Nat) (size : AccessSize) (d : Word) (s : State) : State :=
  if 0x20 ≤ off ∧ off < 0x40 then controlActions off size d s
  else if 0x40 ≤ off ∧ off < 0x1A0 then s.withShadow (s.shadow.write off size d)
  else s

/-- A write to the control page (R8). The entry joins the queue before the write acts; R127 lets the arbiter hear of a
rewrite that a refill asks for (R118, R119) before or after the joining, and that it hears of the joining first is the
MODEL'S CHOICE (log 23). -/
def pageWriteTreatment (x : Access) (d : Word) (off : Nat) (s : State) : State :=
  match decidePageWrite s x.tag off x.size d with
  | .refuseWithNotice index => refuseWrite x.tag index s
  | .refuse => answer x.tag .err none (reportWrite x.tag s)
  | .accept =>
    if s.emission.full then answer x.tag .retry none s
    else pageActions off x.size d (takeNonPosted x (.pageWrite x.size d) (reportWrite x.tag s))

/-- A read of the control page (R8, R165): a PAGE_READ entry, or RETRY. -/
def pageReadTreatment (x : Access) (s : State) : State :=
  if s.emission.full then answer x.tag .retry none s
  else takeNonPosted x (.pageRead x.size) (reportRead x.tag x.address x.size s)

/-! ### An access presented at the U-port (R4, R7) -/

/-- A write that a master presents. While another access is in progress the part takes none (R4; log 5). -/
def presentWrite (tag : Tag) (a : Address) (size : AccessSize) (d : Word) (s : State) : State :=
  let x : Access := { tag := tag, address := a, size := size, write := some d }
  if s.bus.access.isSome then s
  else match classifyWrite s tag a size with
    | .misaligned => answer tag .err none s
    | .page off => pageWriteTreatment x d off s
    | .maskRefused => refuseWrite tag tag.val s
    | .staging p => stagingTreatment x d p s
    | .commit p w => commitTreatment x d p w s
    | .pass => passWriteTreatment x d s

/-- A read that a master presents. While another access is in progress the part takes none (R4; log 5). -/
def presentRead (tag : Tag) (a : Address) (size : AccessSize) (s : State) : State :=
  let x : Access := { tag := tag, address := a, size := size, write := none }
  if s.bus.access.isSome then s
  else match classifyRead s tag a size with
    | .misaligned => answer tag .err none s
    | .page _ => pageReadTreatment x s
    | .maskRefused => answer tag .err none (raise .accessRefused tag.val (reportRefusedRead tag a size s))
    | .pass => passReadTreatment x s

end Sys2Proof.Machine
end

