-- ==== Sys2Proof/Machine/PageWrites.lean ====
section
/-! DEFINITION. Meanings of the rows that write the control page: PAGE_WRITE, SHADOW_TABLE_WRITE, ROUTE_TABLE_WRITE,
MODE_REQUEST_RUN, MODE_REQUEST_SETUP, CLEAR_PERSISTENT, NOTICE_ACKNOWLEDGE and SAND_REFILL. One control record write
may carry several of the last five (R168). The part treats the access by its address, data and the state (log 1). -/

namespace Sys2Proof.Machine

/-- PAGE_WRITE (R165). -/
def execPageWrite (tag : Tag) (a : Address) (size : AccessSize) (d : Word) (s : State) :
    Host.Outcome State Fault Refusal :=
  done (presentWrite tag a size d s)

/-- SHADOW_TABLE_WRITE (R166). -/
def execShadowTableWrite (tag : Tag) (a : Address) (size : AccessSize) (d : Word) (s : State) :
    Host.Outcome State Fault Refusal :=
  done (presentWrite tag a size d s)

/-- ROUTE_TABLE_WRITE (R158, R166). -/
def execRouteTableWrite (tag : Tag) (a : Address) (size : AccessSize) (d : Word) (s : State) :
    Host.Outcome State Fault Refusal :=
  done (presentWrite tag a size d s)

/-- MODE_REQUEST_RUN (R148 to R150, R168). -/
def execModeRequestRun (tag : Tag) (a : Address) (size : AccessSize) (d : Word) (s : State) :
    Host.Outcome State Fault Refusal :=
  done (presentWrite tag a size d s)

/-- MODE_REQUEST_SETUP (R148, R151, R168). -/
def execModeRequestSetup (tag : Tag) (a : Address) (size : AccessSize) (d : Word) (s : State) :
    Host.Outcome State Fault Refusal :=
  done (presentWrite tag a size d s)

/-- CLEAR_PERSISTENT (R62, R168). -/
def execClearPersistent (tag : Tag) (a : Address) (size : AccessSize) (d : Word) (s : State) :
    Host.Outcome State Fault Refusal :=
  done (presentWrite tag a size d s)

/-- NOTICE_ACKNOWLEDGE (R156, R168). -/
def execNoticeAcknowledge (tag : Tag) (a : Address) (size : AccessSize) (d : Word) (s : State) :
    Host.Outcome State Fault Refusal :=
  done (presentWrite tag a size d s)

/-- SAND_REFILL (R118, R168). -/
def execSandRefill (tag : Tag) (a : Address) (size : AccessSize) (d : Word) (s : State) :
    Host.Outcome State Fault Refusal :=
  done (presentWrite tag a size d s)

end Sys2Proof.Machine
end

