-- ==== Sys2Proof/Machine/Reads.lean ====
section
/-! DEFINITION. Meanings of the rows that read: PASS_READ, SPEED_RECORD_READ, DEVICE_STATUS_READ and
NOTICE_ENTRY_READ. The part treats the access by its address and the state (R7; log 1). -/

namespace Sys2Proof.Machine

/-- PASS_READ (R11, R19). -/
def execPassRead (tag : Tag) (a : Address) (size : AccessSize) (s : State) : Host.Outcome State Fault Refusal :=
  done (presentRead tag a size s)

/-- SPEED_RECORD_READ (R19, R160). -/
def execSpeedRecordRead (tag : Tag) (a : Address) (size : AccessSize) (s : State) :
    Host.Outcome State Fault Refusal :=
  done (presentRead tag a size s)

/-- DEVICE_STATUS_READ (R161). -/
def execDeviceStatusRead (tag : Tag) (a : Address) (size : AccessSize) (s : State) :
    Host.Outcome State Fault Refusal :=
  done (presentRead tag a size s)

/-- NOTICE_ENTRY_READ (R161). -/
def execNoticeEntryRead (tag : Tag) (a : Address) (size : AccessSize) (s : State) :
    Host.Outcome State Fault Refusal :=
  done (presentRead tag a size s)

end Sys2Proof.Machine
end

