-- ==== Sys2Proof/Machine/RecordWrites.lean ====
section
/-! DEFINITION. Meanings of the rows that write records and memory: STAGING_WRITE, SPEED_COMMIT, FEEDBACK_COMMIT,
DEMAND_COMMIT and PASS_WRITE. The row names the case of R7 its sender means; the part sees an access and treats it by
its address and the state (log 1). -/

namespace Sys2Proof.Machine

/-- STAGING_WRITE (R14). -/
def execStagingWrite (tag : Tag) (a : Address) (size : AccessSize) (d : Word) (s : State) :
    Host.Outcome State Fault Refusal :=
  done (presentWrite tag a size d s)

/-- SPEED_COMMIT (R26, R16, R17). -/
def execSpeedCommit (tag : Tag) (a : Address) (size : AccessSize) (d : Word) (s : State) :
    Host.Outcome State Fault Refusal :=
  done (presentWrite tag a size d s)

/-- FEEDBACK_COMMIT (R80, R16, R17). -/
def execFeedbackCommit (tag : Tag) (a : Address) (size : AccessSize) (d : Word) (s : State) :
    Host.Outcome State Fault Refusal :=
  done (presentWrite tag a size d s)

/-- DEMAND_COMMIT (R142, R16, R17). -/
def execDemandCommit (tag : Tag) (a : Address) (size : AccessSize) (d : Word) (s : State) :
    Host.Outcome State Fault Refusal :=
  done (presentWrite tag a size d s)

/-- PASS_WRITE (R11). -/
def execPassWrite (tag : Tag) (a : Address) (size : AccessSize) (d : Word) (s : State) :
    Host.Outcome State Fault Refusal :=
  done (presentWrite tag a size d s)

end Sys2Proof.Machine
end

