-- ==== Sys2Proof/Machine/Resets.lean ====
section
/-! DEFINITION. Meanings of POWER_ON and RACKRST. -/

namespace Sys2Proof.Machine

/-- The part as power-on leaves it with PAGESEL at a strap level (R153, R164 and the reset rule of every block). The
model's own two fields go on. -/
def powerOnState (straps : Fin 8) (s : State) : State :=
  { State.reset with
    control := { State.reset.control with pagesel := straps }
    races := s.races
    pending := s.pending }

/-- The part as RACKRST leaves it: as at power-on but for the time base (R2), the notices (R159) and the sand budgets
(R122), which are kept (R23, R140, R153, R163, R166). -/
def rackResetState (straps : Fin 8) (s : State) : State :=
  { powerOnState straps s with
    timeBase := s.timeBase
    notices := s.notices
    sand := { Sand.reset with sanders := s.sand.sanders.map Sander.atRackReset } }

/-- POWER_ON (R153). -/
def execPowerOn (straps : Fin 8) (s : State) : Host.Outcome State Fault Refusal :=
  done (powerOnState straps s)

/-- RACKRST (R140, R23, R153). -/
def execRackReset (straps : Fin 8) (s : State) : Host.Outcome State Fault Refusal :=
  done (rackResetState straps s)

end Sys2Proof.Machine
end

