-- ==== Sys2Proof/Machine/Timers.lean ====
section
/-! DEFINITION. Meanings of the expiries of the part's own timers and of the fall of a unit of sand. Each is an event
of the part that comes when its timer's interval has elapsed; one that has not come has no effect (log 4). -/

namespace Sys2Proof.Machine

/-! ### Which events have come -/

/-- The staleness timer of axle n has elapsed (R32). -/
def stalenessDue (s : State) (n : AxleNo) : Bool :=
  timerDue s.axles[n].staleness s.timeBase s.shadow.stalenessTimeout

/-- The freshness timer of bogie b has elapsed (R83). -/
def freshnessDue (s : State) (b : BogieNo) : Bool :=
  timerDue s.feedback[b].freshness s.timeBase s.shadow.feedbackTimeout

/-- The demand timer of bogie b has elapsed with b LIVE, outside SETUP (R146). -/
def demandTimerDue (s : State) (b : BogieNo) : Bool :=
  s.active && !s.supervision[b].late && timerDue s.supervision[b].timer s.timeBase s.shadow.demandTimeout

/-- The release wait has elapsed (R99). -/
def releaseWaitDue (s : State) : Bool :=
  timerDue s.hold.releaseWait s.timeBase s.shadow.holdReleaseTimeout

/-- The settling timer has elapsed with the latch SETTLING (R104). -/
def settlingDue (s : State) : Bool :=
  decide (s.hold.latch = .settling) && timerDue s.hold.settling s.timeBase s.shadow.rollbackClearTime

/-- The window timer has elapsed (R111). -/
def windowDue (s : State) : Bool :=
  timerDue s.sand.windowTimer s.timeBase s.shadow.hillStartTime

/-- The dwell timer of a sander in DWELL has elapsed (R113). -/
def dwellDue (s : State) (b : BogieNo) : Bool :=
  decide (s.sand.sanders[b].state = .dwell) && timerDue s.sand.sanders[b].dwellTimer s.timeBase s.shadow.sandDwell

/-- The run timer of a sander in ON or DWELL has elapsed (R114). -/
def runDue (s : State) (b : BogieNo) : Bool :=
  (decide (s.sand.sanders[b].state = .on) || decide (s.sand.sanders[b].state = .dwell)) &&
    timerDue s.sand.sanders[b].runTimer s.timeBase s.shadow.maximumSand

/-- The pause timer of a sander in PAUSE has elapsed (R115). -/
def pauseDue (s : State) (b : BogieNo) : Bool :=
  decide (s.sand.sanders[b].state = .pause) && timerDue s.sand.sanders[b].pauseTimer s.timeBase s.shadow.sandPause

/-- A unit of bogie b's sand has been used (R116). -/
def unitDue (s : State) (b : BogieNo) : Bool :=
  decide (10000 ≤ s.sand.sanders[b].accumulator)

/-! ### What they do -/

/-- The loss of the reference, if an expiry has left every enabled axle STALE while Vref is set (R40). -/
def loseReference (s : State) : State :=
  if s.active && allStale s && s.intake.vref.isSome then
    let t := raise .refLost 0 s
    if t.control.mode = .run then fallbackEntry .refLost t else t
  else s

/-- The staleness expiry of axle n (R33, R58): the axle record, the sanders' slip cause (R110), the notice, the rewrite
of the axle's bogie and the loss of the reference. -/
def stalenessExpires (n : AxleNo) (s : State) : State :=
  let s1 := sandersReact (setAxle n s.axles[n].expire s)
  loseReference (requestRewrite (s.shadow.axleBogie n) (raise .axleStale n.val s1))

/-- The freshness expiry of bogie b (R83). -/
def freshnessExpires (b : BogieNo) (s : State) : State :=
  s.withFeedback (s.feedback.set b { s.feedback[b] with freshness := none, lastSequence := none })

/-- The demand timer expiry of bogie b (R146). -/
def demandTimerExpires (b : BogieNo) (s : State) : State :=
  let s1 := s.withSupervision (s.supervision.set b { s.supervision[b] with timer := none, late := true })
  requestRewrite b (raise .demandLate b.val s1)

/-- The expiry of the release wait (R99). -/
def releaseWaitExpires (s : State) : State :=
  let s1 := s.withHold { s.hold with releaseWait := none, blockedReported := true }
  if s.hold.blockedReported then s1 else raise .startBlocked 0 s1

/-- The expiry of the settling timer (R104). -/
def settlingExpires (s : State) : State :=
  let s1 := s.withHold { s.hold with settling := none, settled := true }
  if allHeld s1 then clearLatch s1 else s1

/-- The expiry of the window timer (R111), with the sanders' hill-start cause (R110). -/
def windowExpires (s : State) : State :=
  sandersReact (s.withSand { s.sand with windowOpen := false, windowTimer := none })

/-- The dwell expiry of bogie b (R113): OFF, and straight on to ON if a cause stands (log 19). -/
def dwellExpires (b : BogieNo) (s : State) : State :=
  let s1 := sanderEnterOff b s
  sanderEvent s1.allStanding none b s1

/-- The run timer expiry of bogie b (R114). -/
def runExpires (b : BogieNo) (s : State) : State :=
  if s.hold.latch = .clear then sanderEnterPause b s
  else setSander b { s.sand.sanders[b] with runTimer := none, runOverdue := true } s

/-- The pause expiry of bogie b (R115): OFF, and straight on to ON if a cause stands. -/
def pauseExpires (b : BogieNo) (s : State) : State :=
  let s1 := sanderEnterOff b s
  sanderEvent s1.allStanding none b s1

/-! ### Meanings -/

/-- STALENESS_EXPIRY (R33, R40, R58). -/
def execStalenessExpiry (n : AxleNo) (s : State) : Host.Outcome State Fault Refusal :=
  done (if stalenessDue s n then stalenessExpires n s else s)

/-- FRESHNESS_EXPIRY (R83). -/
def execFreshnessExpiry (b : BogieNo) (s : State) : Host.Outcome State Fault Refusal :=
  done (if freshnessDue s b then freshnessExpires b s else s)

/-- DEMAND_TIMER_EXPIRY (R146). -/
def execDemandTimerExpiry (b : BogieNo) (s : State) : Host.Outcome State Fault Refusal :=
  done (if demandTimerDue s b then demandTimerExpires b s else s)

/-- RELEASE_WAIT_EXPIRY (R99). -/
def execReleaseWaitExpiry (s : State) : Host.Outcome State Fault Refusal :=
  done (if releaseWaitDue s then releaseWaitExpires s else s)

/-- SETTLING_TIMER_EXPIRY (R104). -/
def execSettlingTimerExpiry (s : State) : Host.Outcome State Fault Refusal :=
  done (if settlingDue s then settlingExpires s else s)

/-- WINDOW_TIMER_EXPIRY (R111). -/
def execWindowTimerExpiry (s : State) : Host.Outcome State Fault Refusal :=
  done (if windowDue s then windowExpires s else s)

/-- DWELL_TIMER_EXPIRY (R113). -/
def execDwellTimerExpiry (b : BogieNo) (s : State) : Host.Outcome State Fault Refusal :=
  done (if dwellDue s b then dwellExpires b s else s)

/-- RUN_TIMER_EXPIRY (R114). -/
def execRunTimerExpiry (b : BogieNo) (s : State) : Host.Outcome State Fault Refusal :=
  done (if runDue s b then runExpires b s else s)

/-- PAUSE_TIMER_EXPIRY (R115). -/
def execPauseTimerExpiry (b : BogieNo) (s : State) : Host.Outcome State Fault Refusal :=
  done (if pauseDue s b then pauseExpires b s else s)

/-- BUDGET_UNIT_FALL (R116, R117). -/
def execBudgetUnitFall (b : BogieNo) (s : State) : Host.Outcome State Fault Refusal :=
  done (if unitDue s b then budgetFall b s else s)

end Sys2Proof.Machine
end

