-- ==== Sys2Proof/Machine/Dispatch.lean ====
section
/-! DEFINITION. One arm for each command. -/

namespace Sys2Proof.Machine

/-- A command's effect on everything but the queue of waiting commands. -/
def exec (i : Instr) (s : State) : Host.Outcome State Fault Refusal :=
  match i with
  | .powerOn straps => Sys2Proof.Machine.execPowerOn straps s
  | .rackReset straps => Sys2Proof.Machine.execRackReset straps s
  | .stagingWrite tag a z d => Sys2Proof.Machine.execStagingWrite tag a z d s
  | .speedCommit tag a z d => Sys2Proof.Machine.execSpeedCommit tag a z d s
  | .feedbackCommit tag a z d => Sys2Proof.Machine.execFeedbackCommit tag a z d s
  | .demandCommit tag a z d => Sys2Proof.Machine.execDemandCommit tag a z d s
  | .passWrite tag a z d => Sys2Proof.Machine.execPassWrite tag a z d s
  | .passRead tag a z => Sys2Proof.Machine.execPassRead tag a z s
  | .speedRecordRead tag a z => Sys2Proof.Machine.execSpeedRecordRead tag a z s
  | .pageWrite tag a z d => Sys2Proof.Machine.execPageWrite tag a z d s
  | .shadowTableWrite tag a z d => Sys2Proof.Machine.execShadowTableWrite tag a z d s
  | .routeTableWrite tag a z d => Sys2Proof.Machine.execRouteTableWrite tag a z d s
  | .modeRequestRun tag a z d => Sys2Proof.Machine.execModeRequestRun tag a z d s
  | .modeRequestSetup tag a z d => Sys2Proof.Machine.execModeRequestSetup tag a z d s
  | .clearPersistent tag a z d => Sys2Proof.Machine.execClearPersistent tag a z d s
  | .noticeAcknowledge tag a z d => Sys2Proof.Machine.execNoticeAcknowledge tag a z d s
  | .sandRefill tag a z d => Sys2Proof.Machine.execSandRefill tag a z d s
  | .deviceStatusRead tag a z => Sys2Proof.Machine.execDeviceStatusRead tag a z s
  | .noticeEntryRead tag a z => Sys2Proof.Machine.execNoticeEntryRead tag a z s
  | .stalenessExpiry n => Sys2Proof.Machine.execStalenessExpiry n s
  | .freshnessExpiry b => Sys2Proof.Machine.execFreshnessExpiry b s
  | .demandTimerExpiry b => Sys2Proof.Machine.execDemandTimerExpiry b s
  | .releaseWaitExpiry => Sys2Proof.Machine.execReleaseWaitExpiry s
  | .settlingTimerExpiry => Sys2Proof.Machine.execSettlingTimerExpiry s
  | .windowTimerExpiry => Sys2Proof.Machine.execWindowTimerExpiry s
  | .dwellTimerExpiry b => Sys2Proof.Machine.execDwellTimerExpiry b s
  | .runTimerExpiry b => Sys2Proof.Machine.execRunTimerExpiry b s
  | .pauseTimerExpiry b => Sys2Proof.Machine.execPauseTimerExpiry b s
  | .budgetUnitFall b => Sys2Proof.Machine.execBudgetUnitFall b s
  | .rewriteIssue => Sys2Proof.Machine.execRewriteIssue s
  | .demandCommitIssue => Sys2Proof.Machine.execDemandCommitIssue s
  | .recordBurstIssue => Sys2Proof.Machine.execRecordBurstIssue s
  | .passAccessIssue => Sys2Proof.Machine.execPassAccessIssue s
  | .dPortAck d began => Sys2Proof.Machine.execDPortAck d s began
  | .dPortErr began => Sys2Proof.Machine.execDPortErr s began
  | .dPortTimeout => Sys2Proof.Machine.execDPortTimeout s

end Sys2Proof.Machine
end

