-- ==== Sys2Proof/Machine/Idle.lean ====
section
/-! DEFINITION. What the part does of its own accord when no command waits: an event of its own that is due, or the
passing of one microsecond (log 2, log 3). -/

namespace Sys2Proof.Machine

/-! ### The passing of time (R2) -/

/-- The elapsed counter of the reference unit after a microsecond outside SETUP: it counts, Vref set or not, and stops at
its last value (R38, R39; log 11). -/
def Intake.tick (x : Intake) : Intake :=
  { x with elapsed := min (x.elapsed + 1) 16777215 }

/-- The consumption accumulator after a microsecond, in ON or DWELL outside SETUP (R116). -/
def Sander.tick (x : Sander) : Sander :=
  { x with
    accumulator :=
      if x.state = .on ∨ x.state = .dwell then x.accumulator + 1 else x.accumulator }

/-- One microsecond passes. In SETUP the reference unit keeps its values (R41), and no sander consumes (R116). -/
def tick (s : State) : State :=
  { s with
    timeBase := s.timeBase + 1
    intake := if s.active then s.intake.tick else s.intake
    sand := if s.active then { s.sand with sanders := s.sand.sanders.map Sander.tick } else s.sand }

/-! ### Events that are due -/

/-- The command in a list of one if it is due. -/
def dueIf (due : Bool) (c : Instr) : List Instr :=
  if due then [c] else []

/-- The timer expiries that are due. -/
def dueExpiries (s : State) : List Instr :=
  upTo8.flatMap (fun n => dueIf (stalenessDue s n) (.stalenessExpiry n)) ++
  upTo4.flatMap (fun b => dueIf (freshnessDue s b) (.freshnessExpiry b)) ++
  upTo4.flatMap (fun b => dueIf (demandTimerDue s b) (.demandTimerExpiry b)) ++
  dueIf (releaseWaitDue s) .releaseWaitExpiry ++
  dueIf (settlingDue s) .settlingTimerExpiry ++
  dueIf (windowDue s) .windowTimerExpiry

/-- The sander events that are due. -/
def dueSanderEvents (s : State) : List Instr :=
  upTo4.flatMap (fun b => dueIf (dwellDue s b) (.dwellTimerExpiry b)) ++
  upTo4.flatMap (fun b => dueIf (runDue s b) (.runTimerExpiry b)) ++
  upTo4.flatMap (fun b => dueIf (pauseDue s b) (.pauseTimerExpiry b)) ++
  upTo4.flatMap (fun b => dueIf (unitDue s b) (.budgetUnitFall b))

/-- The command that issues an entry. -/
def Entry.issuedBy (x : Entry) : Instr :=
  match x.kind with
  | .demandCommit _ => .demandCommitIssue
  | .speedRecord _ => .recordBurstIssue
  | .feedbackRecord _ => .recordBurstIssue
  | .passRead _ => .passAccessIssue
  | .passWrite _ _ => .passAccessIssue
  | .pageRead _ => .passAccessIssue
  | .pageWrite _ _ => .passAccessIssue

/-- The D-port events that are due: the issue the arbiter decided, and a timeout. -/
def duePortEvents (s : State) : List Instr :=
  dueIf (issuingRewrite s.emission).isSome .rewriteIssue ++
  (match issuingHead s with
    | some x => [x.issuedBy]
    | none => []) ++
  dueIf (portTimeoutDue s) .dPortTimeout

/-- The part's own events that are due. -/
def dueEvents (s : State) : List Instr :=
  dueExpiries s ++ dueSanderEvents s ++ duePortEvents s

/-! ### The idle step -/

/-- The event taken among those that are due: the one there is, or, of several, the one the free value
`Config.raceOrder` names (log 3). -/
def takenEvent (s : State) : Option Instr :=
  match dueEvents s with
  | [] => none
  | [c] => some c
  | c :: d :: rest => (c :: d :: rest)[Config.raceOrder s.races % (rest.length + 2)]?

/-- A step with no command waiting: a due event, or one microsecond (log 2). -/
def idle (s : State) : Host.Outcome State Fault Refusal :=
  match takenEvent s with
  | some c => exec c (s.withRaces (s.races + 1))
  | none => .next (tick s)

end Sys2Proof.Machine
end

