-- ==== Sys2Proof/Safety.lean ====
section
/-! DEFINITION. What the statements speak of: the accesses that a row carries, the treatments of an access as
conditions on the state, and the invariants of the part. -/

namespace Sys2Proof.Machine

/-! ### Rows that carry an access -/

/-- The write that a row carries: tag, address, size and data. -/
def writeOf : Instr → Option (Tag × Address × AccessSize × Word)
  | .stagingWrite t a z d => some (t, a, z, d)
  | .speedCommit t a z d => some (t, a, z, d)
  | .feedbackCommit t a z d => some (t, a, z, d)
  | .demandCommit t a z d => some (t, a, z, d)
  | .passWrite t a z d => some (t, a, z, d)
  | .pageWrite t a z d => some (t, a, z, d)
  | .shadowTableWrite t a z d => some (t, a, z, d)
  | .routeTableWrite t a z d => some (t, a, z, d)
  | .modeRequestRun t a z d => some (t, a, z, d)
  | .modeRequestSetup t a z d => some (t, a, z, d)
  | .clearPersistent t a z d => some (t, a, z, d)
  | .noticeAcknowledge t a z d => some (t, a, z, d)
  | .sandRefill t a z d => some (t, a, z, d)
  | _ => none

/-- The read that a row carries: tag, address and size. -/
def readOf : Instr → Option (Tag × Address × AccessSize)
  | .passRead t a z => some (t, a, z)
  | .speedRecordRead t a z => some (t, a, z)
  | .deviceStatusRead t a z => some (t, a, z)
  | .noticeEntryRead t a z => some (t, a, z)
  | _ => none

/-! ### What the U-port shows and what the overlay unit keeps -/

/-- The U-port after an answer: free, with the answer given. -/
def answered (tag : Tag) (a : Answer) (data : Option (List Byte)) : Bus where
  access := none
  answer := some { tag := tag, answer := a, data := data }

/-- The U-port held by an access that waits for its D-port result. -/
def heldBy (x : Access) : Bus where
  access := some x
  answer := none

/-- The overlay unit with a master's snapshot released. -/
def released (tag : Tag) (o : Overlay) : Overlay :=
  { o with snapshots := o.snapshots.set tag none }

/-- The notice table with a kind raised at a time. -/
def noted (k : NoticeKind) (index : Nat) (now : Word) (t : Vector Notice 15) : Vector Notice 15 :=
  t.set k.slot (t[k.slot].raised (BitVec.ofNat 8 index) now)

/-- The emission unit with an entry joined; an idle arbiter decides (R123, R127). -/
def joined (x : Entry) (e : Emission) : Emission :=
  Emission.arbitrate { e with queue := e.queue ++ [x] }

/-- The emission unit with a bogie in the rewrite set; an idle arbiter decides (R126, R127). -/
def requested (b : BogieNo) (e : Emission) : Emission :=
  Emission.arbitrate { e with rewriteSet := e.rewriteSet.set b true }

/-- The emission unit with the D-port free again and another queue; the arbiter decides (R127). -/
def ended (queue : List Entry) (e : Emission) : Emission :=
  Emission.arbitrate { e with queue := queue, inFlight := none, decision := none }

/-! ### The shadow's bytes -/

/-- Byte `i` of a table's entry. -/
def byteAt {n : Nat} (v : Vector Byte n) (i : Nat) : Nat :=
  (v[i]?.getD 0).toNat

/-- The 16-bit value at byte `i` of a table's entry (00_scope 4.3). -/
def halfAt {n : Nat} (v : Vector Byte n) (i : Nat) : Nat :=
  byteAt v i + 256 * byteAt v (i + 1)

/-- The base of window w (Table 11-4). -/
def baseAt (sh : Shadow) (w : WindowNo) : Nat :=
  byteAt sh.windows[w] 0 + 256 * byteAt sh.windows[w] 1 + 65536 * byteAt sh.windows[w] 2

/-- Window w is enabled for matching and covers the address (R9). -/
def Covers (sh : Shadow) (w : WindowNo) (a : Address) : Prop :=
  4 ≤ byteAt sh.windows[w] 3 ∧ byteAt sh.windows[w] 3 ≤ 16 ∧ baseAt sh w ≤ a.toNat ∧
    a.toNat < baseAt sh w + 2 ^ byteAt sh.windows[w] 3

/-- Window w is the one enabled window that covers the address (R9). -/
def OnlyCovers (sh : Shadow) (w : WindowNo) (a : Address) : Prop :=
  Covers sh w a ∧ ∀ v, Covers sh v a → v = w

/-- The implied index of an address in window w: the first index and the record number (R9). -/
def indexAt (sh : Shadow) (w : WindowNo) (a : Address) : Nat :=
  byteAt sh.windows[w] 5 + (a.toNat - baseAt sh w) / 16

/-- Window w has a size code and the kind, and holds a record of the index (R149). -/
def HoldsRecord (sh : Shadow) (kind : Nat) (w : WindowNo) (i : Nat) : Prop :=
  byteAt sh.windows[w] 3 ≠ 0 ∧ byteAt sh.windows[w] 4 = kind ∧ byteAt sh.windows[w] 5 ≤ i ∧
    i < byteAt sh.windows[w] 5 + 2 ^ (byteAt sh.windows[w] 3 - 4)

/-- Axle n is enabled and names the bogie and the slot, 0 for A and 1 for B (R67, Table 11-5). -/
def Occupies (sh : Shadow) (n : AxleNo) (b slot : Nat) : Prop :=
  byteAt sh.axles[n] 0 = 1 ∧ byteAt sh.axles[n] 1 = b ∧ byteAt sh.axles[n] 2 = slot

/-- An axle entry with an enable other than 0 is within Table 11-5. -/
def AxleEntryFits (v : Vector Byte 8) : Prop :=
  byteAt v 0 = 1 ∧ byteAt v 1 ≤ 3 ∧ byteAt v 2 ≤ 1 ∧ (byteAt v 3 ≤ 3 ∨ byteAt v 3 = 255) ∧
    1 ≤ halfAt v 4 ∧ halfAt v 4 ≤ 1000 ∧ halfAt v 6 ≤ halfAt v 4

/-- A bogie entry is within Table 11-6. -/
def BogieEntryFits (v : Vector Byte 16) : Prop :=
  1 ≤ halfAt v 0 ∧ halfAt v 0 ≤ 2000 ∧ 1 ≤ halfAt v 2 ∧ halfAt v 2 ≤ 4000 ∧ halfAt v 4 ≤ halfAt v 0 ∧
    halfAt v 6 ≤ halfAt v 0 ∧ halfAt v 8 ≤ 32767 ∧ halfAt v 10 ≤ 500 ∧ byteAt v 14 < 16 ∧ byteAt v 15 = 0

/-- The vehicle record is within Table 11-7. -/
def VehicleFits (v : Vector Byte 64) : Prop :=
  10 ≤ byteAt v 2 ∧ byteAt v 3 ≤ 8 ∧ 1 ≤ halfAt v 4 ∧ halfAt v 4 ≤ 2000 ∧ 1 ≤ halfAt v 6 ∧ halfAt v 6 ≤ 5000 ∧
    halfAt v 8 ≤ 32767 ∧ halfAt v 10 ≤ 32767 ∧ halfAt v 12 ≤ 1000 ∧ 1 ≤ halfAt v 14 ∧ halfAt v 14 ≤ 32767 ∧
    halfAt v 16 ≤ 32767 ∧ halfAt v 18 ≤ 32767 ∧ 1 ≤ halfAt v 20 ∧ halfAt v 20 ≤ 1000 ∧
    1 ≤ halfAt v 22 ∧ halfAt v 22 ≤ 500 ∧ 1 ≤ halfAt v 24 ∧ halfAt v 24 ≤ 500 ∧
    1 ≤ halfAt v 26 ∧ halfAt v 26 ≤ 30000 ∧ halfAt v 28 ≤ 30000 ∧
    (∀ i, 30 ≤ i → i < 43 → i ≠ 38 → i ≠ 40 → 1 ≤ byteAt v i) ∧ byteAt v 38 ≤ 127 ∧
    ∀ i, 43 ≤ i → i < 64 → byteAt v i = 0

/-- The seven checks of RUN validation, by the reason that a failure gives, over a control page at a base (R149). -/
def RunCheck (sh : Shadow) (page : Nat) : Nat → Prop
  | 1 => 1 ≤ byteAt sh.vehicle 0 ∧ byteAt sh.vehicle 0 ≤ 8 ∧ 1 ≤ byteAt sh.vehicle 1 ∧ byteAt sh.vehicle 1 ≤ 4
  | 2 => ∀ w : WindowNo, byteAt sh.windows[w] 3 ≠ 0 →
      4 ≤ byteAt sh.windows[w] 3 ∧ byteAt sh.windows[w] 3 ≤ 16 ∧ baseAt sh w % 2 ^ byteAt sh.windows[w] 3 = 0 ∧
        1 ≤ byteAt sh.windows[w] 4 ∧ byteAt sh.windows[w] 4 ≤ 4 ∧
        (∀ i, HoldsRecord sh 2 w i → i < byteAt sh.vehicle 0) ∧
        ∀ i, (HoldsRecord sh 1 w i ∨ HoldsRecord sh 3 w i) → i < byteAt sh.vehicle 1
  | 3 => ∀ (w : WindowNo) (a : Nat), byteAt sh.windows[w] 3 ≠ 0 → baseAt sh w ≤ a →
      a < baseAt sh w + 2 ^ byteAt sh.windows[w] 3 →
        ¬ (page ≤ a ∧ a < page + 768) ∧
          ∀ v : WindowNo, byteAt sh.windows[v] 3 ≠ 0 → baseAt sh v ≤ a →
            a < baseAt sh v + 2 ^ byteAt sh.windows[v] 3 → v = w
  | 4 => (∀ n : AxleNo, byteAt sh.axles[n] 0 = 1 → ∃! w, HoldsRecord sh 2 w n.val) ∧
      ∀ b : BogieNo, b.val < byteAt sh.vehicle 1 →
        (∃! w, HoldsRecord sh 1 w b.val) ∧ ∃! w, HoldsRecord sh 3 w b.val
  | 5 => (∀ n : AxleNo, byteAt sh.axles[n] 0 = 1 →
        n.val < byteAt sh.vehicle 0 ∧ byteAt sh.axles[n] 1 < byteAt sh.vehicle 1 ∧ byteAt sh.axles[n] 2 ≤ 1 ∧
          ∀ m : AxleNo, Occupies sh m (byteAt sh.axles[n] 1) (byteAt sh.axles[n] 2) → m = n) ∧
      ∀ b : BogieNo, b.val < byteAt sh.vehicle 1 →
        ∃ n : AxleNo, byteAt sh.axles[n] 0 = 1 ∧ byteAt sh.axles[n] 1 = b.val
  | 6 => halfAt sh.vehicle 4 < halfAt sh.vehicle 6 ∧ halfAt sh.vehicle 8 ≤ halfAt sh.vehicle 10 ∧
      halfAt sh.vehicle 12 < halfAt sh.vehicle 4 ∧ halfAt sh.vehicle 28 < halfAt sh.vehicle 26
  | 7 => (∀ n : AxleNo, byteAt sh.axles[n] 0 ≠ 0 → AxleEntryFits sh.axles[n]) ∧
      (∀ b : BogieNo, b.val < byteAt sh.vehicle 1 → BogieEntryFits sh.bogies[b]) ∧ VehicleFits sh.vehicle ∧
      ∀ k, 1 ≤ k → k < 16 → byteAt sh.routes k ≤ 1
  | _ => True

/-! ### Treatments of an access as conditions -/

/-- The bus is free, the access is aligned and lies outside the control page. -/
def OffPage (s : State) (a : Address) (z : AccessSize) : Prop :=
  s.bus.access = none ∧ alignedAccess a z = true ∧ pageOffset s a = none

/-- A write falls in record window w of kind k, and its mask is met. -/
def RecordWrite (s : State) (tag : Tag) (a : Address) (z : AccessSize) (w : WindowNo) (k : RecordKind) : Prop :=
  OffPage s a z ∧ matchedWindow s a = some w ∧ s.shadow.windowWriter w tag = true ∧ s.shadow.recordKind w = some k

/-- The write is a staging write (R14). -/
def StagingTo (s : State) (tag : Tag) (a : Address) (z : AccessSize) (w : WindowNo) (k : RecordKind) : Prop :=
  RecordWrite s tag a z w k ∧ recordOffset a + z.bytes ≠ 16

/-- The write is a commit (R15). -/
def CommitTo (s : State) (tag : Tag) (a : Address) (z : AccessSize) (w : WindowNo) (k : RecordKind) : Prop :=
  RecordWrite s tag a z w k ∧ recordOffset a + z.bytes = 16

/-- A write passes through (R11): no window is matched, or a GUARD window whose mask is met. -/
def PassingWrite (s : State) (tag : Tag) (a : Address) (z : AccessSize) : Prop :=
  OffPage s a z ∧
    (matchedWindow s a = none ∨
      ∃ w, matchedWindow s a = some w ∧ s.shadow.windowWriter w tag = true ∧ s.shadow.recordKind w = none)

/-- A read is carried to memory (R11, R19): no window is matched, or one whose reader mask is met. -/
def PassingRead (s : State) (tag : Tag) (a : Address) (z : AccessSize) : Prop :=
  OffPage s a z ∧
    (matchedWindow s a = none ∨ ∃ w, matchedWindow s a = some w ∧ s.shadow.windowReader w tag = true)

/-- The bus is free and an aligned access lies in the control page at an offset. -/
def OnPage (s : State) (a : Address) (z : AccessSize) (off : Nat) : Prop :=
  s.bus.access = none ∧ alignedAccess a z = true ∧ pageOffset s a = some off

/-- The queue has room for an entry (R124). -/
def HasRoom (s : State) : Prop :=
  s.emission.queue.length < 6

/-- The owner of a staging slot passes a commit image (R16, R26, R80, R142, R143). -/
def ownerPasses (s : State) (p : Place) (r : Record) : Bool :=
  match p with
  | .demand b => judgeDemand s b r
  | .speed n => s.shadow.axleEnabled n && judgeSpeed n r
  | .feedback b => judgeFeedback b r

/-- The snapshot a read of an enriched record uses, given its master's slot (R161). -/
def usedSnapshot (slot : Option Snapshot) (live : Snapshot) : Snapshot :=
  match slot with
  | some p => if p.kind = live.kind ∧ p.address = live.address then p else live
  | none => live

/-- The overlay unit after the report of a read of an enriched record, at a byte offset of the record (R161, R162). -/
def readOverlay (o : Overlay) (tag : Tag) (live : Snapshot) (offset : Nat) (z : AccessSize) : Overlay :=
  let p := usedSnapshot o.snapshots[tag] live
  { snapshots := o.snapshots.set tag (if live.kind.size - 4 < offset + z.bytes then none else some p)
    fixed := some ((p.values.drop offset).take z.bytes) }

/-- The notice table with the kinds of an acknowledge set cleared (R156). -/
def acked (mask : Half) (t : Vector Notice 15) : Vector Notice 15 :=
  Vector.ofFn fun i : Fin 15 => if mask.getLsbD (i.val + 1) then Notice.clear else t[i]

/-- The axle records with the persistent flags and lists of a mask's axles cleared (R62). -/
def unpersisted (mask : Byte) (t : Vector Axle 8) : Vector Axle 8 :=
  Vector.ofFn fun n : Fin 8 =>
    if mask.getLsbD n.val then { t[n] with persistent := false, slipEntries := [] } else t[n]

/-- The clear-persistent mask that a control record write at a page offset carries (R168). -/
def carriedMask (off : Nat) (z : AccessSize) (d : Word) : Byte :=
  (coveredByte off z d 1).getD 0

/-- The state after an accepted control page write has joined the queue and holds the bus (R8). -/
def pageWriteTaken (s : State) (a : Address) (z : AccessSize) (d : Word) : State :=
  { s with
    emission :=
      joined { kind := .pageWrite z d, address := a, tag := 0, retries := 0 } s.emission
    overlay := released 0 s.overlay
    bus := heldBy { tag := 0, address := a, size := z, write := some d } }

/-- An event that fails the access in flight: memory's ERR to it, or its timeout once it has come (R136). -/
def FailsFlight (s : State) (c : Instr) : Prop :=
  ∃ f, s.emission.inFlight = some f ∧
    (c = .dPortErr none ∨ c = .dPortErr (some f.start) ∨ (c = .dPortTimeout ∧ 64 ≤ interval s.timeBase f.start))

/-- The issue of a demand burst of bogie b outside SETUP, of the arbiter's choice: a rewrite, carrying the standing
request, or the head DEMAND_COMMIT, carrying its snapshot's (R127, R130, R131). -/
def DemandIssue (s : State) (c : Instr) (b : BogieNo) (q : Request) (isRewrite : Bool) (burstOf : BurstOf)
    (a : Address) : Prop :=
  s.active = true ∧
    ((c = .rewriteIssue ∧ issuingRewrite s.emission = some b ∧ q = s.standing b ∧ isRewrite = true ∧
        burstOf = .rewrite b 0 ∧ a = s.shadow.demandRecordAddress b) ∨
      (c = .demandCommitIssue ∧ headMayIssue s.emission = true ∧ isRewrite = false ∧ burstOf = .head ∧
        ∃ x r, s.emission.queue.head? = some x ∧ x.kind = .demandCommit r ∧ x.address = a ∧
          b = s.shadow.demandBogie a ∧ q = Request.ofRecord r))

/-- The hill-start window opens at the issue of a burst of bogie b (R111). -/
def HillStartOpens (s : State) (b : BogieNo) (q : Request) : Prop :=
  q.mode = .drive ∧ s.hold.gate = .closed ∧ s.sand.usedSinceClosing = false ∧
    ∃ e, s.shadow.counts e = true ∧
      (s.shadow.hillStartGrade : Int) ≤ (if e = b then q else s.standing e).gradient.toInt

/-- The issue of a burst of bogie b completes the held bogies of a latch that has settled (R104). -/
def LatchConfirmed (s : State) (b : BogieNo) (q : Request) : Prop :=
  q.mode = .hold ∧ s.hold.latch = .settling ∧ s.hold.settled = true ∧
    ∀ e, s.shadow.counts e = true → e = b ∨ s.hold.held[e] = true

/-- Two states differ at most in the sanders' records, the rewrite set, the output lines and what an idle arbiter
decides. -/
def SameButSanders (s t : State) : Prop :=
  t.timeBase = s.timeBase ∧ t.control = s.control ∧ t.shadow = s.shadow ∧ t.bus = s.bus ∧ t.staging = s.staging ∧
    t.axles = s.axles ∧ t.intake = s.intake ∧ t.feedback = s.feedback ∧ t.hold = s.hold ∧
    t.sand.windowOpen = s.sand.windowOpen ∧ t.sand.windowTimer = s.sand.windowTimer ∧
    t.sand.usedSinceClosing = s.sand.usedSinceClosing ∧ t.supervision = s.supervision ∧
    t.emission.queue = s.emission.queue ∧ t.emission.streak = s.emission.streak ∧
    t.emission.inFlight = s.emission.inFlight ∧ t.notices = s.notices ∧ t.overlay = s.overlay ∧
    t.races = s.races ∧ t.pending = s.pending

/-- Two states agree in what no timer, issue or D-port answer writes: the U-port's configuration side. -/
def SameConfiguration (s t : State) : Prop :=
  t.timeBase = s.timeBase ∧ t.shadow = s.shadow ∧ t.staging = s.staging ∧ t.races = s.races ∧ t.pending = s.pending

/-! ### Invariants -/

/-- Cut line k is asserted exactly in RUN with an axle that names it in SLIP or the latch not CLEAR, and in FALLBACK
(R76); ALERT exactly while a pending kind has route 1 (R158). -/
def LinesSettled (s : State) : Prop :=
  (∀ k : Fin 4, s.lines.cut[k] = true ↔
    (s.control.mode = .run ∧ ∃ n : AxleNo, byteAt s.shadow.axles[n] 3 = k.val ∧ s.axles[n].state = .slip) ∨
      (s.control.mode = .run ∧ s.hold.latch ≠ .clear) ∨ s.control.mode = .fallback) ∧
    (s.lines.alert = true ↔ ∃ i : Fin 15, s.notices[i].pending = true ∧ byteAt s.shadow.routes (i.val + 1) = 1)

/-- A kind is pending exactly when its count is at least one, and a kind that is not pending has a clear entry
(R154). -/
def NoticesSound (s : State) : Prop :=
  ∀ i : Fin 15, (s.notices[i].pending = true ↔ s.notices[i].count ≠ 0) ∧
    (s.notices[i].pending = false → s.notices[i] = Notice.clear)

/-- A sander is in EMPTY exactly when the mode is RUN or FALLBACK and its budget is zero (R117). -/
def EmptySound (s : State) : Prop :=
  ∀ b : BogieNo, s.sand.sanders[b].state = .empty ↔ s.active = true ∧ s.sand.sanders[b].budget = 0

/-- The rewrite set is empty while the mode is SETUP (R126). -/
def RewritesSound (s : State) : Prop :=
  s.control.mode = .setup → s.emission.rewriteSet = BogieSet.none

/-- Outside SETUP the gate is CLOSED whenever a standing mode is HOLD (R95). -/
def GateSound (s : State) : Prop :=
  s.active = true → ∀ b : BogieNo, s.shadow.counts b = true → (s.standing b).mode = .hold → s.hold.gate = .closed

/-- The latch's other fields fit its state (R102 to R104): a CLEAR latch has no held bogie, and only a SETTLING one has
its timer running or has settled. -/
def LatchSound (s : State) : Prop :=
  (s.hold.latch = .clear → s.hold.held = BogieSet.none) ∧
    (s.hold.latch ≠ .settling → s.hold.settling = none ∧ s.hold.settled = false)

/-- An entry is posted (R123). -/
def Entry.posted (x : Entry) : Bool :=
  match x.kind with
  | .speedRecord _ => true
  | .feedbackRecord _ => true
  | _ => false

/-- What is in flight is the head entry's, or a rewrite (R123, R127, R135). -/
def FlightSound (e : Emission) : Prop :=
  match e.inFlight with
  | none => True
  | some (.access _) => ∃ x, e.queue.head? = some x ∧ x.portAccess.isSome = true
  | some (.burst .head _ _ _ _) => ∃ x, e.queue.head? = some x ∧ x.portAccess = none
  | some (.burst (.rewrite _ _) _ _ _ _) => True

/-- The queue holds at most six entries, of which at most the youngest is non-posted; it is exactly when an access
holds the bus (R5, R123). -/
def QueueSound (s : State) : Prop :=
  s.emission.queue.length ≤ 6 ∧ (∀ x ∈ s.emission.queue.dropLast, x.posted = true) ∧
    (s.bus.access.isSome = true ↔ ∃ x, s.emission.queue.getLast? = some x ∧ x.posted = false) ∧
    FlightSound s.emission

/-- With the D-port free the arbiter has decided exactly when work waits, and for work that waits; with the D-port taken
no decision stands (R127). -/
def ArbiterSound (e : Emission) : Prop :=
  (e.inFlight ≠ none → e.decision = none) ∧
    (e.inFlight = none → (e.decision = none ↔ e.queue = [] ∧ e.rewriteSet = BogieSet.none)) ∧
    (e.decision = some .head → e.queue ≠ []) ∧
    (∀ b, e.decision = some (.rewrite b) → e.rewriteSet[b] = true)

/-- A LATE bogie's demand timer is stopped (R146), and a STALE axle's staleness timer (R32). -/
def TimersSound (s : State) : Prop :=
  (∀ b : BogieNo, s.supervision[b].late = true → s.supervision[b].timer = none) ∧
    ∀ n : AxleNo, s.axles[n].state = .stale → s.axles[n].staleness = none

end Sys2Proof.Machine
end

