-- ==== Sys2Proof/Certificates/Slice0/Obligations.lean ====
section
/-! DEFINITION. The statements for the provers. -/

section Statements

open Sys2Proof Sys2Proof.Machine

/-! ### The machine -/

/-- With a command at the front of the queue, a step is that command's effect on the state with the queue's rest. -/
def Obligations.StepRunsTheFrontCommand : Prop :=
  ∀ (c : Instr) (rest : List Instr) (s : State),
    step { s with pending := c :: rest } = exec c { s with pending := rest }

/-- With no command waiting, a step takes one of the part's own due events, or lets one microsecond pass if none is
due: the model's choice (log 2, log 3). A timer's expiry is due exactly when the timer runs and its configured
interval has elapsed since it was started, a unit of sand when 10000 microseconds are accumulated (log 10), and an
issue when the arbiter has decided it (log 9). A microsecond raises the time base and, outside SETUP, the reference
unit's elapsed counter and the accumulator of each sander in ON or DWELL (R2, R32, R38, R39, R83, R99, R104, R111,
R113 to R116, R127, R136, R146). -/
def Obligations.AnIdleStepTakesADueEventOrAMicrosecond : Prop :=
  (∀ s : State, s.pending = [] →
     (dueEvents s = [] → step s = .next (tick s)) ∧
       (dueEvents s ≠ [] → ∃ c ∈ dueEvents s, step s = exec c { s with races := s.races + 1 })) ∧
  (∀ s : State,
     (∀ n, .stalenessExpiry n ∈ dueEvents s ↔
       ∃ t, s.axles[n].staleness = some t ∧ s.shadow.stalenessTimeout ≤ interval s.timeBase t) ∧
     (∀ b, .freshnessExpiry b ∈ dueEvents s ↔
       ∃ t, s.feedback[b].freshness = some t ∧ s.shadow.feedbackTimeout ≤ interval s.timeBase t) ∧
     (∀ b, .demandTimerExpiry b ∈ dueEvents s ↔
       s.active = true ∧ s.supervision[b].late = false ∧
         ∃ t, s.supervision[b].timer = some t ∧ s.shadow.demandTimeout ≤ interval s.timeBase t) ∧
     (.releaseWaitExpiry ∈ dueEvents s ↔
       ∃ t, s.hold.releaseWait = some t ∧ s.shadow.holdReleaseTimeout ≤ interval s.timeBase t) ∧
     (.settlingTimerExpiry ∈ dueEvents s ↔
       s.hold.latch = .settling ∧
         ∃ t, s.hold.settling = some t ∧ s.shadow.rollbackClearTime ≤ interval s.timeBase t) ∧
     (.windowTimerExpiry ∈ dueEvents s ↔
       ∃ t, s.sand.windowTimer = some t ∧ s.shadow.hillStartTime ≤ interval s.timeBase t) ∧
     (∀ b, .dwellTimerExpiry b ∈ dueEvents s ↔
       s.sand.sanders[b].state = .dwell ∧
         ∃ t, s.sand.sanders[b].dwellTimer = some t ∧ s.shadow.sandDwell ≤ interval s.timeBase t) ∧
     (∀ b, .runTimerExpiry b ∈ dueEvents s ↔
       (s.sand.sanders[b].state = .on ∨ s.sand.sanders[b].state = .dwell) ∧
         ∃ t, s.sand.sanders[b].runTimer = some t ∧ s.shadow.maximumSand ≤ interval s.timeBase t) ∧
     (∀ b, .pauseTimerExpiry b ∈ dueEvents s ↔
       s.sand.sanders[b].state = .pause ∧
         ∃ t, s.sand.sanders[b].pauseTimer = some t ∧ s.shadow.sandPause ≤ interval s.timeBase t) ∧
     (.dPortTimeout ∈ dueEvents s ↔
       ∃ f, s.emission.inFlight = some f ∧ 64 ≤ interval s.timeBase f.start) ∧
     (∀ b, .budgetUnitFall b ∈ dueEvents s ↔ 10000 ≤ s.sand.sanders[b].accumulator) ∧
     (.rewriteIssue ∈ dueEvents s ↔ ∃ b, issuingRewrite s.emission = some b) ∧
     (.demandCommitIssue ∈ dueEvents s ↔ headMayIssue s.emission = true ∧
       ∃ x r, s.emission.queue.head? = some x ∧ x.kind = .demandCommit r) ∧
     (.recordBurstIssue ∈ dueEvents s ↔ headMayIssue s.emission = true ∧
       ∃ x r, s.emission.queue.head? = some x ∧ (x.kind = .speedRecord r ∨ x.kind = .feedbackRecord r)) ∧
     (.passAccessIssue ∈ dueEvents s ↔ headMayIssue s.emission = true ∧
       ∃ x p, s.emission.queue.head? = some x ∧ x.portAccess = some p)) ∧
  (∀ s : State,
     (tick s).timeBase = s.timeBase + 1 ∧
     (tick s).intake = (if s.active = true then s.intake.tick else s.intake) ∧
     (∀ b : BogieNo, (tick s).sand.sanders[b] =
       { s.sand.sanders[b] with
         accumulator :=
           if s.active = true ∧ (s.sand.sanders[b].state = .on ∨ s.sand.sanders[b].state = .dwell) then
             s.sand.sanders[b].accumulator + 1
           else s.sand.sanders[b].accumulator }) ∧
     tick s =
       { s with
         timeBase := (tick s).timeBase
         intake := (tick s).intake
         sand := { s.sand with sanders := (tick s).sand.sanders } })

/-- The arbiter chooses by the table of R127, a rewrite being of the lowest-numbered bogie (R130). With the D-port
free and nothing decided it decides at an entry's joining, at a rewrite request, and at the end of an access or burst
with its effects made; what it has decided is not revised, and it is what issues. That each joining and each request
is an event of its own, and that a decision stands until its issue, is the model's reading of R127 (log 9). -/
def Obligations.TheArbiterIssuesByTheTable : Prop :=
  (∀ e : Emission,
    (BogieSet.isEmpty e.rewriteSet = true → e.queue = [] → e.choice = none) ∧
    (BogieSet.isEmpty e.rewriteSet = true → e.queue ≠ [] → e.choice = some .head) ∧
    (∀ b, BogieSet.lowest e.rewriteSet = some b → e.queue = [] → e.choice = some (.rewrite b)) ∧
    (∀ b, BogieSet.lowest e.rewriteSet = some b → e.queue ≠ [] → e.streak < 2 → e.choice = some (.rewrite b)) ∧
    (∀ b, BogieSet.lowest e.rewriteSet = some b → e.queue ≠ [] → 2 ≤ e.streak → e.choice = some .head) ∧
    (∀ b, BogieSet.lowest e.rewriteSet = some b ↔
      e.rewriteSet[b] = true ∧ ∀ c : BogieNo, c < b → e.rewriteSet[c] = false)) ∧
  (∀ (e : Emission) (x : Entry),
    (e.inFlight = none → e.decision = none →
      (joined x e).decision = Emission.choice { e with queue := e.queue ++ [x] }) ∧
    ((e.inFlight ≠ none ∨ e.decision ≠ none) → (joined x e).decision = e.decision)) ∧
  (∀ (s : State) (b : BogieNo), s.active = true →
    (s.emission.inFlight = none → s.emission.decision = none →
      (requestRewrite b s).emission.decision =
        Emission.choice { s.emission with rewriteSet := s.emission.rewriteSet.set b true }) ∧
    ((s.emission.inFlight ≠ none ∨ s.emission.decision ≠ none) →
      (requestRewrite b s).emission.decision = s.emission.decision)) ∧
  (∀ (s : State) (c : Instr) (d : Word), ((c = .dPortAck d none ∧ s.emission.inFlight ≠ none) ∨ FailsFlight s c) →
    ∃ t, exec c s = .next t ∧ (t.emission.inFlight = none → t.emission.decision = t.emission.choice)) ∧
  (∀ e : Emission,
    (headMayIssue e = true ↔ e.inFlight = none ∧ e.queue ≠ [] ∧ e.decision = some .head) ∧
    (∀ b, issuingRewrite e = some b ↔
      e.inFlight = none ∧ e.decision = some (.rewrite b) ∧ e.rewriteSet[b] = true))

/-- Every command completes in every state, leaves the waiting commands as they are, and takes no time; POWER_ON alone
sets the time base. That commands are instants is the model's choice (log 1). -/
def Obligations.EveryCommandCompletesAndLeavesTheQueue : Prop :=
  ∀ (c : Instr) (s : State), ∃ t, exec c s = .next t ∧ t.pending = s.pending ∧ t.races = s.races ∧
    ((∀ p, c ≠ .powerOn p) → t.timeBase = s.timeBase)

/-! ### Resets -/

/-- What power-on leaves, block by block (R2, R22, R41, R64, R78, R93, R107, R122, R140, R153, R159, R163, R166). -/
def Obligations.ResetLeavesTheValuesOfTheSpec : Prop :=
  State.reset.timeBase = 0 ∧
  State.reset.control.mode = .setup ∧ State.reset.control.rejectReason = 0 ∧
  State.reset.control.fallbackCause = .none ∧
  (∀ off, 0x40 ≤ off → off < 0x1A0 → shadowByte State.reset.shadow off = 0) ∧
  State.reset.bus.access = none ∧
  (∀ p : Place, State.reset.staging.slot p = Vector.replicate 16 0) ∧
  (∀ n : AxleNo, State.reset.axles[n].state = .stale ∧ State.reset.axles[n].ring = Vector.replicate 8 0 ∧
    State.reset.axles[n].fill = 0 ∧ State.reset.axles[n].position = 0 ∧ State.reset.axles[n].latest = none ∧
    State.reset.axles[n].lastArrival = none ∧ State.reset.axles[n].lastSequence = none ∧
    State.reset.axles[n].staleness = none ∧ State.reset.axles[n].slip = 0 ∧
    State.reset.axles[n].acceleration = 0 ∧ State.reset.axles[n].entryEffort = 0 ∧
    State.reset.axles[n].cutLevel = 0 ∧ State.reset.axles[n].ceilingBase = 0 ∧
    State.reset.axles[n].slipEntry = none ∧ State.reset.axles[n].recoverEntry = none ∧
    State.reset.axles[n].lastEmitted = 0 ∧ State.reset.axles[n].slipEntries = [] ∧
    State.reset.axles[n].persistent = false) ∧
  State.reset.intake.vref = none ∧ State.reset.intake.elapsed = 0 ∧
  (∀ b : BogieNo, State.reset.feedback[b].latest = none ∧ State.reset.feedback[b].lastArrival = none ∧
    State.reset.feedback[b].lastSequence = none ∧ State.reset.feedback[b].freshness = none ∧
    State.reset.feedback[b].granted = 0) ∧
  State.reset.hold.gate = .closed ∧ State.reset.hold.releaseWait = none ∧
  State.reset.hold.blockedReported = false ∧ State.reset.hold.direction = .fwd ∧
  State.reset.hold.latch = .clear ∧ BogieSet.isEmpty State.reset.hold.held = true ∧
  State.reset.hold.settling = none ∧ State.reset.hold.settled = false ∧
  (∀ b : BogieNo, State.reset.sand.sanders[b].state = .off ∧ State.reset.sand.sanders[b].budget = 0 ∧
    State.reset.sand.sanders[b].accumulator = 0 ∧ State.reset.sand.sanders[b].runTimer = none ∧
    State.reset.sand.sanders[b].runOverdue = false ∧ State.reset.sand.sanders[b].dwellTimer = none ∧
    State.reset.sand.sanders[b].pauseTimer = none) ∧
  State.reset.sand.windowOpen = false ∧ State.reset.sand.windowTimer = none ∧
  State.reset.sand.usedSinceClosing = false ∧
  (∀ b : BogieNo, State.reset.standing b =
      { mode := .hold, direction := .fwd, driverSand := false, isolateA := false, isolateB := false,
        gradient := 0, tractionA := 0, tractionB := 0, brake := 0, sequence := 0 } ∧
    State.reset.supervision[b].late = false ∧ State.reset.supervision[b].timer = none) ∧
  State.reset.emission.queue = [] ∧ BogieSet.isEmpty State.reset.emission.rewriteSet = true ∧
  State.reset.emission.streak = 0 ∧ State.reset.emission.inFlight = none ∧
  (∀ i : Fin 15, State.reset.notices[i] = Notice.clear) ∧ topNotice State.reset.notices = 0 ∧
  (∀ t : Tag, State.reset.overlay.snapshots[t] = none) ∧ State.reset.overlay.fixed = none ∧
  (∀ k : Fin 4, State.reset.lines.cut[k] = false) ∧ State.reset.lines.alert = false

/-- POWER_ON leaves the part as power-on leaves it, with PAGESEL as sampled. RACKRST does the same, but keeps the time
base, the notices and the sand budgets; ALERT falls (R2, R23, R122, R140, R153, R159, R163, R164, R166). -/
def Obligations.TheTwoResetsLeaveTheirStates : Prop :=
  (∀ (p : Fin 8) (s : State), exec (.powerOn p) s = .next
     { State.reset with
       control := { State.reset.control with pagesel := p }
       races := s.races
       pending := s.pending }) ∧
  (∀ (p : Fin 8) (s : State), exec (.rackReset p) s = .next
     { State.reset with
       control := { State.reset.control with pagesel := p }
       timeBase := s.timeBase
       notices := s.notices
       sand :=
         { State.reset.sand with
           sanders := s.sand.sanders.map fun x => { Sander.reset with budget := x.budget } }
       races := s.races
       pending := s.pending })

/-! ### The U-port

A row of a write, and a row of a read, is an access that the part treats by its address and state (log 1). The `answer`
of the bus is the model's own record of the answer given (log 8); lines settle at the end of each command (log 17). -/

/-- A misaligned access is answered ERR and does nothing else (R6). -/
def Obligations.AMisalignedAccessIsAnsweredErr : Prop :=
  ∀ (c : Instr) (s : State) (tag : Tag) (a : Address) (z : AccessSize),
    ((∃ d, writeOf c = some (tag, a, z, d)) ∨ readOf c = some (tag, a, z)) →
    s.bus.access = none → a.toNat % z.bytes ≠ 0 →
      exec c s = .next (settle { s with bus := answered tag .err none })

/-- An access that its window's mask does not permit is answered ERR with ACCESS_REFUSED and changes nothing else but
its master's snapshot: a write releases it, a read takes none and releases one of another enriched record (R10, R162;
log 20). -/
def Obligations.AnAccessTheMaskRefusesIsAnsweredErr : Prop :=
  (∀ (c : Instr) (s : State) (tag : Tag) (a : Address) (z : AccessSize) (d : Word) (w : WindowNo),
     writeOf c = some (tag, a, z, d) → OffPage s a z → matchedWindow s a = some w →
     s.shadow.windowWriter w tag = false →
       exec c s = .next (settle
         { s with
           notices := noted .accessRefused tag.val s.timeBase s.notices
           overlay := released tag s.overlay
           bus := answered tag .err none })) ∧
  (∀ (c : Instr) (s : State) (tag : Tag) (a : Address) (z : AccessSize) (w : WindowNo),
     readOf c = some (tag, a, z) → OffPage s a z → matchedWindow s a = some w →
     s.shadow.windowReader w tag = false →
       ∃ o : Option Snapshot,
         (o = s.overlay.snapshots[tag] ∨ o = none) ∧
         (s.shadow.recordKind w ≠ some .speed → o = s.overlay.snapshots[tag]) ∧
         (∀ p, s.overlay.snapshots[tag] = some p → s.shadow.recordKind w = some .speed →
           ¬ (p.kind = .speedRecord ∧ p.address = recordAddress a) → o = none) ∧
         exec c s = .next (settle
           { s with
             notices := noted .accessRefused tag.val s.timeBase s.notices
             overlay := { s.overlay with snapshots := s.overlay.snapshots.set tag o }
             bus := answered tag .err none }))

/-- A staging write stores its bytes into the slot and is answered ACK at once; it enqueues nothing and reaches no
owner. The image has the write's bytes at their offsets and the slot's elsewhere, and no other slot changes (R13 to
R15). Outside SETUP an access is matched against the one enabled window that covers its address, and located there by
the record number (address - base) / 16; its slot is that of the window's kind and of the index first index + record
number (R9, R13). That an access's bytes are the low bytes of the data is the model's choice (log 7). -/
def Obligations.AStagingWriteStoresItsBytes : Prop :=
  (∀ (s : State) (tag : Tag) (a : Address) (z : AccessSize) (d : Word) (w : WindowNo) (k : RecordKind),
     StagingTo s tag a z w k →
       exec (.stagingWrite tag a z d) s = .next (settle
         { s with
           staging := s.staging.put (s.shadow.placeAt w k a) (slotImage s (s.shadow.placeAt w k a) a z d)
           overlay := released tag s.overlay
           bus := answered tag .ack none })) ∧
  ((∀ (s : State) (p : Place) (a : Address) (z : AccessSize) (d : Word) (i : Fin 16),
     a.toNat % z.bytes = 0 →
       (slotImage s p a z d)[i] =
         if recordOffset a ≤ i.val ∧ i.val < recordOffset a + z.bytes then byteOf d (i.val - recordOffset a)
         else (s.staging.slot p)[i]) ∧
     ∀ (g : Staging) (p q : Place) (r : Record), (g.put p r).slot q = if q = p then r else g.slot q) ∧
  (∀ (s : State) (a : Address),
     (s.control.mode = .setup → matchedWindow s a = none) ∧
     ((∀ w, ¬ Covers s.shadow w a) → matchedWindow s a = none) ∧
     (∀ w, s.control.mode ≠ .setup → OnlyCovers s.shadow w a → matchedWindow s a = some w) ∧
     (∀ w, matchedWindow s a = some w → Covers s.shadow w a)) ∧
  (∀ (sh : Shadow) (w : WindowNo) (a : Address),
     (byteAt sh.windows[w] 4 = 1 → sh.recordKind w = some .demand) ∧
     (byteAt sh.windows[w] 4 = 2 → sh.recordKind w = some .speed) ∧
     (byteAt sh.windows[w] 4 = 3 → sh.recordKind w = some .feedback) ∧
     (byteAt sh.windows[w] 4 = 4 → sh.recordKind w = none) ∧
     (∀ b : BogieNo, b.val = indexAt sh w a →
       sh.placeAt w .demand a = .demand b ∧ sh.placeAt w .feedback a = .feedback b) ∧
     (∀ n : AxleNo, n.val = indexAt sh w a → sh.placeAt w .speed a = .speed n) ∧
     (Covers sh w a → baseAt sh w % 16 = 0 →
       (recordAddress a).toNat = baseAt sh w + 16 * ((a.toNat - baseAt sh w) / 16) ∧
         recordOffset a = a.toNat - (recordAddress a).toNat))

/-- A commit that its owner does not pass is answered ERR with RECORD_REJECTED of its window, whatever the queue
holds; one that passes and finds six entries is answered RETRY. No slot, queue or owner state changes. An owner passes
an image exactly when the checks of its kind hold of the image's bytes (R16, R17, R26, R80, R142). -/
def Obligations.ACommitNotAcceptedChangesNoOwner : Prop :=
  (∀ (c : Instr) (s : State) (tag : Tag) (a : Address) (z : AccessSize) (d : Word) (w : WindowNo) (k : RecordKind),
     writeOf c = some (tag, a, z, d) → CommitTo s tag a z w k →
     ownerPasses s (s.shadow.placeAt w k a) (slotImage s (s.shadow.placeAt w k a) a z d) = false →
       exec c s = .next (settle
         { s with
           notices := noted .recordRejected w.val s.timeBase s.notices
           overlay := released tag s.overlay
           bus := answered tag .err none })) ∧
  (∀ (c : Instr) (s : State) (tag : Tag) (a : Address) (z : AccessSize) (d : Word) (w : WindowNo) (k : RecordKind),
     writeOf c = some (tag, a, z, d) → CommitTo s tag a z w k →
     ownerPasses s (s.shadow.placeAt w k a) (slotImage s (s.shadow.placeAt w k a) a z d) = true →
     ¬ HasRoom s → exec c s = .next (settle { s with bus := answered tag .retry none })) ∧
  (∀ (s : State) (n : AxleNo) (r : Record), ownerPasses s (.speed n) r = true ↔
     s.shadow.axleEnabled n = true ∧ r[0].toNat = n.val ∧ r[1].toNat ≤ 2 ∧ r[2].toNat ≤ 2 ∧
       (le16 r[4] r[5]).toNat ≤ 30000) ∧
  (∀ (s : State) (b : BogieNo) (r : Record), ownerPasses s (.feedback b) r = true ↔
     r[0].toNat = b.val ∧ r[1].toNat ≤ 1 ∧ (le16 r[2] r[3]).toNat ≤ 1000 ∧ (le16 r[4] r[5]).toNat ≤ 1000 ∧
       -1000 ≤ (le16 r[6] r[7]).toInt ∧ (le16 r[6] r[7]).toInt ≤ 1000 ∧
       -1000 ≤ (le16 r[8] r[9]).toInt ∧ (le16 r[8] r[9]).toInt ≤ 1000) ∧
  (∀ (s : State) (b : BogieNo) (r : Record), ownerPasses s (.demand b) r = true ↔
     r[0].toNat ≤ 3 ∧ r[1].toNat ≤ 1 ∧ (∀ i, 3 ≤ i → i < 8 → r[2].getLsbD i = false) ∧
       (∀ n, s.shadow.axleAt b .a = some n → (le16 r[4] r[5]).toNat ≤ s.shadow.maximumEffort n) ∧
       (∀ n, s.shadow.axleAt b .b = some n → (le16 r[6] r[7]).toNat ≤ s.shadow.maximumEffort n) ∧
       (s.shadow.axleAt b .a = none → le16 r[4] r[5] = 0) ∧ (s.shadow.axleAt b .b = none → le16 r[6] r[7] = 0) ∧
       (le16 r[8] r[9]).toNat ≤ s.shadow.brakeLimit b ∧
       judgeDemandAgainst s b (Request.ofRecord r) = true)

/-- An accepted SPEED commit: ACK, the slot, a posted entry and the sequence class. Unless it is a duplicate or a
DROPOUT the sample is stored, Vref is evaluated, slip and acceleration are written, and the axle makes the transition
of its evaluated state, with its notices and the rewrite of its bogie at a SLIP entry. A GOOD sample against the
vehicle direction at the rollback speed, the latch not LATCHED, then latches the latch. R31 orders neither of the two
deliveries of stage 5: that the evaluation of the axle comes before the rollback detection is the model's choice (log
12), and so is that the sanders make their transitions at the evaluation of Vref, at the axle's transition and at the
latching each in turn, and not once (log 13) (R17, R18, R27 to R31, R39, R46, R48, R54, R101, R102, R110). -/
def Obligations.AnAcceptedSpeedCommitIsQueuedAndApplied : Prop :=
  ∀ (s : State) (tag : Tag) (a : Address) (z : AccessSize) (d : Word) (w : WindowNo) (n : AxleNo) (r : Record),
    CommitTo s tag a z w .speed → s.shadow.placeAt w .speed a = .speed n →
    r = slotImage s (.speed n) a z d → ownerPasses s (.speed n) r = true → HasRoom s →
      ∃ t, exec (.speedCommit tag a z d) s = .next t ∧
        t.bus = answered tag .ack none ∧
        t.staging = s.staging.put (.speed n) r ∧
        t.overlay = released tag s.overlay ∧
        t.emission.queue =
          s.emission.queue ++ [{ kind := .speedRecord r, address := recordAddress a, tag := tag, retries := 0 }] ∧
        t.axles[n].lastSequence = some r[14] ∧
        (∀ m : AxleNo, m ≠ n → t.axles[m] = s.axles[m]) ∧
        (s.axles[n].lastSequence = some r[14] →
          t.axles = s.axles ∧ t.intake = s.intake ∧ t.hold = s.hold ∧ t.sand = s.sand ∧ t.notices = s.notices ∧
            t.emission.rewriteSet = s.emission.rewriteSet) ∧
        (s.axles[n].lastSequence ≠ some r[14] → r[2] = 2 →
          t.axles = s.axles.set n { s.axles[n] with lastSequence := some r[14] } ∧ t.intake = s.intake ∧
            t.hold = s.hold ∧ t.sand = s.sand ∧ t.emission.rewriteSet = s.emission.rewriteSet) ∧
        (s.axles[n].lastSequence ≠ some r[14] → r[2] ≠ 2 →
          let quality : Quality := if r[2] = 0 then .good else .noisy
          let stored := { s.axles[n] with lastSequence := some r[14] }.store (recordSpeed r) quality s.timeBase
          let v := evaluateVref n { s with axles := s.axles.set n stored }
          let u : State :=
            { v with
              axles := v.axles.set n
                { stored with
                  acceleration := estimate s.shadow stored
                  slip := (recordSpeed r : Int) - (v.vref : Int) } }
          let detected := r[2] = 0 ∧ sensedDirection r[1] = some s.hold.direction.opposite ∧
            s.shadow.rollbackSpeed ≤ recordSpeed r ∧ v.hold.latch ≠ .latched
          t.axles[n].latest = some { speed := recordSpeed r, quality := quality } ∧
            t.axles[n].lastArrival = some s.timeBase ∧ t.axles[n].staleness = some s.timeBase ∧
            t.axles[n].ring = s.axles[n].ring.set s.axles[n].position (recordSpeed r) ∧
            t.axles[n].position = s.axles[n].position + 1 ∧
            t.axles[n].fill = (if s.axles[n].fill < 8 then s.axles[n].fill + 1 else 8) ∧
            t.intake = v.intake ∧
            t.axles[n].slip = (recordSpeed r : Int) - (t.vref : Int) ∧
            t.axles[n].acceleration = estimate s.shadow t.axles[n] ∧
            t.axles[n] = (transition n u).axles[n] ∧
            t.notices[NoticeKind.slipEntry.slot] = (transition n u).notices[NoticeKind.slipEntry.slot] ∧
            t.notices[NoticeKind.persistentSlip.slot] = (transition n u).notices[NoticeKind.persistentSlip.slot] ∧
            (s.axles[n].state ≠ .slip → t.axles[n].state = .slip →
              t.emission.rewriteSet[s.shadow.axleBogie n] = true) ∧
            (detected → t.hold = (latchRollback n u).hold ∧ t.hold.latch = .latched ∧
              t.notices[NoticeKind.rollback.slot] =
                s.notices[NoticeKind.rollback.slot].raised (BitVec.ofNat 8 n.val) s.timeBase ∧
              ∀ b, s.shadow.counts b = true → t.emission.rewriteSet[b] = true) ∧
            (¬ detected → t.hold = v.hold ∧
              t.notices[NoticeKind.rollback.slot] = s.notices[NoticeKind.rollback.slot]) ∧
            (detected → t.sand = (latchRollback n (transition n u)).sand ∧
              t.emission.rewriteSet = (latchRollback n (transition n u)).emission.rewriteSet) ∧
            (¬ detected → t.sand = (transition n u).sand ∧
              t.emission.rewriteSet = (transition n u).emission.rewriteSet)) ∧
        (∀ q, s.axles[n].lastSequence = some q → r[14] ≠ q → r[14] ≠ q + 1 →
          t.notices[NoticeKind.seqGap.slot] =
            s.notices[NoticeKind.seqGap.slot].raised (BitVec.ofNat 8 n.val) s.timeBase) ∧
        ((s.axles[n].lastSequence = none ∨ s.axles[n].lastSequence = some (r[14] - 1)) →
          t.notices[NoticeKind.seqGap.slot] = s.notices[NoticeKind.seqGap.slot]) ∧
        t.timeBase = s.timeBase ∧ t.control = s.control ∧ t.shadow = s.shadow ∧ t.feedback = s.feedback ∧
        t.supervision = s.supervision ∧ t.emission.streak = s.emission.streak ∧
        t.emission.inFlight = s.emission.inFlight ∧ t.races = s.races ∧ t.pending = s.pending

/-- An accepted FEEDBACK commit: ACK, the slot, a posted entry, the sequence class, and the context applied and the gate
evaluated unless it is a duplicate (R17, R18, R81, R82, R96). -/
def Obligations.AnAcceptedFeedbackCommitIsQueuedAndApplied : Prop :=
  ∀ (s : State) (tag : Tag) (a : Address) (z : AccessSize) (d : Word) (w : WindowNo) (b : BogieNo) (r : Record),
    CommitTo s tag a z w .feedback → s.shadow.placeAt w .feedback a = .feedback b →
    r = slotImage s (.feedback b) a z d → ownerPasses s (.feedback b) r = true → HasRoom s →
      ∃ t, exec (.feedbackCommit tag a z d) s = .next t ∧
        t.bus = answered tag .ack none ∧
        t.staging = s.staging.put (.feedback b) r ∧
        t.overlay = released tag s.overlay ∧
        t.emission =
          joined { kind := .feedbackRecord r, address := recordAddress a, tag := tag, retries := 0 } s.emission ∧
        (s.feedback[b].lastSequence = some r[14] →
          t.feedback = s.feedback ∧ t.hold = s.hold ∧ t.notices = s.notices) ∧
        (s.feedback[b].lastSequence ≠ some r[14] →
          t.feedback = s.feedback.set b
            { latest := some (FeedbackValues.ofRecord r)
              lastArrival := some s.timeBase
              lastSequence := some r[14]
              freshness := some s.timeBase
              granted := s.feedback[b].granted } ∧
            t.hold = (evaluateGate { s with feedback := t.feedback }).hold) ∧
        (∀ q, s.feedback[b].lastSequence = some q → r[14] ≠ q → r[14] ≠ q + 1 →
          t.notices = noted .seqGap (8 + b.val) s.timeBase s.notices) ∧
        ((s.feedback[b].lastSequence = none ∨ s.feedback[b].lastSequence = some (r[14] - 1)) →
          t.notices = s.notices) ∧
        t.timeBase = s.timeBase ∧ t.control = s.control ∧ t.shadow = s.shadow ∧ t.axles = s.axles ∧
        t.intake = s.intake ∧ t.sand = s.sand ∧ t.supervision = s.supervision ∧ t.races = s.races ∧
        t.pending = s.pending

/-- An evaluation of the gate opens a CLOSED gate, and stops the release wait, exactly when every standing mode is
DRIVE, the latch is CLEAR and the achieved sum meets the grade effort; the grade effort is that of the largest standing
gradient, and the achieved sum is over the occupied slots of the bogies within the bogie count, each with its counted
achieved effort (R84, R94, R96, R99). -/
def Obligations.TheGateOpensWhenTheMotorsHaveTheGrade : Prop :=
  (∀ s : State, s.active = true →
     (evaluateGate s).hold =
       (if s.hold.gate = .closed ∧ (∀ b, s.shadow.counts b = true → (s.standing b).mode = .drive) ∧
           s.hold.latch = .clear ∧ (gradeEffort s = 0 ∨ (gradeEffort s : Int) ≤ achievedSum s) then
         { s.hold with gate := .opened, releaseWait := none }
       else s.hold) ∧
     evaluateGate s = { s with hold := (evaluateGate s).hold }) ∧
  (∀ (s : State) (g : Int), (∃ b, s.shadow.counts b = true ∧ (s.standing b).gradient.toInt = g) →
     (∀ b, s.shadow.counts b = true → (s.standing b).gradient.toInt ≤ g) →
       (g ≤ 0 → gradeEffort s = 0) ∧ (0 < g → gradeEffort s = s.shadow.mass * g.toNat * 981 / 10000)) ∧
  (∀ s : State,
     let share := fun b : BogieNo =>
       if b.val < byteAt s.shadow.vehicle 1 then achievedIn s b .a + achievedIn s b .b else 0
     achievedSum s = share 0 + share 1 + share 2 + share 3 ∧
     ∀ b : BogieNo,
       ((∃ n, Occupies s.shadow n b.val 0) → achievedIn s b .a = (counted s b).achievedA) ∧
       ((∃ n, Occupies s.shadow n b.val 1) → achievedIn s b .b = (counted s b).achievedB) ∧
       ((∀ n, ¬ Occupies s.shadow n b.val 0) → achievedIn s b .a = 0) ∧
       ((∀ n, ¬ Occupies s.shadow n b.val 1) → achievedIn s b .b = 0))

/-- An accepted DEMAND commit: the access keeps the bus, the slot, a non-posted entry, the timer restarted, the bogie
LIVE, and after LATE its adhered axles in RECOVER from base 0, at which the sanders make their transitions; the standing
request is not yet changed (R17, R18, R60, R110, R144). -/
def Obligations.AnAcceptedDemandCommitIsQueuedAndApplied : Prop :=
  ∀ (s : State) (tag : Tag) (a : Address) (z : AccessSize) (d : Word) (w : WindowNo) (b : BogieNo) (r : Record),
    CommitTo s tag a z w .demand → s.shadow.placeAt w .demand a = .demand b →
    r = slotImage s (.demand b) a z d → ownerPasses s (.demand b) r = true → HasRoom s →
      ∃ t, exec (.demandCommit tag a z d) s = .next t ∧
        t.bus = heldBy { tag := tag, address := a, size := z, write := some d } ∧
        t.staging = s.staging.put (.demand b) r ∧
        t.overlay = released tag s.overlay ∧
        t.emission.queue =
          s.emission.queue ++ [{ kind := .demandCommit r, address := recordAddress a, tag := tag, retries := 0 }] ∧
        t.supervision = s.supervision.set b
          { standing := s.standing b, late := false, timer := some s.timeBase } ∧
        (s.supervision[b].late = false → t.axles = s.axles ∧ t.sand = s.sand) ∧
        (s.supervision[b].late = true →
          t.sand = (sandersEvent s.allStanding none { s with axles := t.axles }).sand) ∧
        (s.supervision[b].late = true → ∀ n : AxleNo, t.axles[n] =
          if s.shadow.axleEnabled n = true ∧ s.shadow.axleBogie n = b ∧ s.axles[n].state ≠ .stale then
            { s.axles[n] with state := .recover, ceilingBase := 0, recoverEntry := some s.timeBase }
          else s.axles[n]) ∧
        t.timeBase = s.timeBase ∧ t.control = s.control ∧ t.shadow = s.shadow ∧ t.intake = s.intake ∧
        t.feedback = s.feedback ∧ t.hold = s.hold ∧ t.notices = s.notices ∧
        t.emission.streak = s.emission.streak ∧ t.emission.inFlight = s.emission.inFlight ∧
        t.races = s.races ∧ t.pending = s.pending

/-- A DEMAND commit is judged against the standing requests of the other bogies within the bogie count (R143), and the
request it carries is read from its record's bytes (Table 11-1, R141, R142). -/
def Obligations.ADemandCommitIsJudgedAgainstTheOtherBogies : Prop :=
  (∀ (s : State) (b : BogieNo) (q : Request),
    judgeDemandAgainst s b q = false ↔
      ∃ c, c ≠ b ∧ s.shadow.counts c = true ∧
        ((q.mode = .drive ∧ (s.standing c).mode = .brake) ∨
          (q.mode = .brake ∧ (s.standing c).mode = .drive) ∨
          ((q.mode = .drive ∨ q.mode = .brake) ∧ ((s.standing c).mode = .drive ∨ (s.standing c).mode = .brake) ∧
            (s.standing c).direction ≠ q.direction))) ∧
  (∀ r : Record,
    let q := Request.ofRecord r
    (r[0] = 0 → q.mode = .coast) ∧ (r[0] = 1 → q.mode = .drive) ∧ (r[0] = 2 → q.mode = .brake) ∧
    (r[0] = 3 → q.mode = .hold) ∧ (r[1] = 0 → q.direction = .fwd) ∧ (r[1] = 1 → q.direction = .rev) ∧
    q.driverSand = r[2].getLsbD 0 ∧ q.isolateA = r[2].getLsbD 1 ∧ q.isolateB = r[2].getLsbD 2 ∧
    q.gradient = r[3] ∧ q.tractionA = (le16 r[4] r[5]).toNat ∧ q.tractionB = (le16 r[6] r[7]).toNat ∧
    q.brake = (le16 r[8] r[9]).toNat ∧ q.sequence = r[14])

/-- A pass-through write becomes a PASS_WRITE entry and a read outside every SPEED window a PASS_READ entry, each
holding the bus; a pass-through write and a read carried to memory, of a SPEED record too, are answered RETRY without
room (R11, R19, R124, R162). -/
def Obligations.APassThroughAccessJoinsTheQueue : Prop :=
  (∀ (s : State) (tag : Tag) (a : Address) (z : AccessSize) (d : Word), PassingWrite s tag a z →
     (HasRoom s → exec (.passWrite tag a z d) s = .next (settle
       { s with
         emission := joined { kind := .passWrite z d, address := a, tag := tag, retries := 0 } s.emission
         overlay := released tag s.overlay
         bus := heldBy { tag := tag, address := a, size := z, write := some d } })) ∧
     (¬ HasRoom s → ∀ c, writeOf c = some (tag, a, z, d) →
       exec c s = .next (settle { s with bus := answered tag .retry none }))) ∧
  (∀ (s : State) (tag : Tag) (a : Address) (z : AccessSize), PassingRead s tag a z →
     (∀ w, matchedWindow s a = some w → s.shadow.recordKind w ≠ some .speed) →
     (HasRoom s → exec (.passRead tag a z) s = .next (settle
       { s with
         emission := joined { kind := .passRead z, address := a, tag := tag, retries := 0 } s.emission
         overlay := { s.overlay with fixed := none }
         bus := heldBy { tag := tag, address := a, size := z, write := none } }))) ∧
  (∀ (c : Instr) (s : State) (tag : Tag) (a : Address) (z : AccessSize), readOf c = some (tag, a, z) →
     PassingRead s tag a z → ¬ HasRoom s → exec c s = .next (settle { s with bus := answered tag .retry none }))

/-- A permitted read of a SPEED record becomes a PASS_READ entry, and its overlaid values are fixed under its master's
snapshot (R19, R160 to R162). -/
def Obligations.ASpeedRecordReadFixesItsValues : Prop :=
  ∀ (s : State) (tag : Tag) (a : Address) (z : AccessSize) (w : WindowNo) (n : AxleNo),
    OffPage s a z → matchedWindow s a = some w → s.shadow.windowReader w tag = true →
    s.shadow.placeAt w .speed a = .speed n → s.shadow.recordKind w = some .speed → HasRoom s →
      exec (.speedRecordRead tag a z) s = .next (settle
        { s with
          emission := joined { kind := .passRead z, address := a, tag := tag, retries := 0 } s.emission
          overlay := readOverlay s.overlay tag
            { kind := .speedRecord, address := recordAddress a, values := speedOwned s n } (recordOffset a) z
          bus := heldBy { tag := tag, address := a, size := z, write := none } })

/-! ### The control page -/

/-- A page write by tag 0 to the status record, bytes 12 to 31 of the control record, the plain region or the notice
table is forwarded and has no effect in the part (R165, R167). Any page write by tag 0 that its region does not
refuse, a shadow table write, a mode request, a clear, an acknowledgement or a refill among them, is answered RETRY
with no effect when the queue holds six entries (R8, R124, R166, R167). -/
def Obligations.APageWriteWithoutAnActionIsForwarded : Prop :=
  (∀ (s : State) (a : Address) (z : AccessSize) (d : Word) (off : Nat), OnPage s a z off →
    (off < 0x20 ∨ (0x2C ≤ off ∧ off < 0x40) ∨ 0x1A0 ≤ off) →
    HasRoom s → exec (.pageWrite 0 a z d) s = .next (settle (pageWriteTaken s a z d))) ∧
  (∀ (c : Instr) (s : State) (a : Address) (z : AccessSize) (d : Word) (off : Nat),
    writeOf c = some (0, a, z, d) → OnPage s a z off → ¬ HasRoom s →
    ¬ (off = 0x20 ∧ 2 < d.toNat % 256) → ¬ (z = .byte ∧ 0x24 ≤ off ∧ off < 0x2C) →
    (0x40 ≤ off → off < 0x1A0 → s.control.mode = .setup) →
      exec c s = .next (settle { s with bus := answered 0 .retry none }))

/-- A page write by a master other than tag 0, and a shadow table write outside SETUP, are answered ERR with
ACCESS_REFUSED; a control record write that R167 refuses is answered ERR with no notice. Nothing is enqueued and no
action is applied (R8, R166, R167). -/
def Obligations.ARefusedPageWriteIsAnsweredErr : Prop :=
  ∀ (c : Instr) (s : State) (tag : Tag) (a : Address) (z : AccessSize) (d : Word) (off : Nat),
    writeOf c = some (tag, a, z, d) → OnPage s a z off →
    (tag ≠ 0 → exec c s = .next (settle
      { s with
        notices := noted .accessRefused tag.val s.timeBase s.notices
        overlay := released tag s.overlay
        bus := answered tag .err none })) ∧
    (tag = 0 → 0x40 ≤ off → off < 0x1A0 → s.active = true → exec c s = .next (settle
      { s with
        notices := noted .accessRefused 0 s.timeBase s.notices
        overlay := released tag s.overlay
        bus := answered tag .err none })) ∧
    (tag = 0 → ((off = 0x20 ∧ 2 < d.toNat % 256) ∨ (z = .byte ∧ 0x24 ≤ off ∧ off < 0x2C)) →
      exec c s = .next (settle
        { s with
          overlay := released tag s.overlay
          bus := answered tag .err none }))

/-- In SETUP a write by tag 0 to a shadow table replaces the bytes it covers, and no others, and is forwarded; the
lines, and so ALERT, follow (R158, R165, R166). The data lanes are the model's choice (log 7). -/
def Obligations.AShadowTableWriteInSetupReplacesItsBytes : Prop :=
  (∀ (s : State) (a : Address) (z : AccessSize) (d : Word) (off : Nat), OnPage s a z off →
     0x40 ≤ off → off < 0x1A0 → s.control.mode = .setup → HasRoom s →
     (exec (.shadowTableWrite 0 a z d) s = .next (settle
       { pageWriteTaken s a z d with shadow := s.shadow.write off z d })) ∧
     (0x190 ≤ off → exec (.routeTableWrite 0 a z d) s = .next (settle
       { pageWriteTaken s a z d with shadow := s.shadow.write off z d }))) ∧
  (∀ (sh : Shadow) (z : AccessSize) (d : Word) (off j : Nat),
     0x40 ≤ off → off < 0x1A0 → off % z.bytes = 0 → 0x40 ≤ j → j < 0x1A0 →
       shadowByte (sh.write off z d) j =
         if off ≤ j ∧ j < off + z.bytes then byteOf d (j - off) else shadowByte sh j)

/-- A RUN request in SETUP whose validation passes makes RUN entry: every block takes its RUN-entry values, and the
notices that the same write acknowledges are cleared; R42 does not name the elapsed counter, and that it is 0 there,
as R41 has it throughout SETUP, is the model's reading (log 11) (R22, R42, R65, R93, R107, R122, R148, R150, R168). -/
def Obligations.ARunRequestThatValidatesEntersRun : Prop :=
  ∀ (s : State) (a : Address) (z : AccessSize) (d : Word), OnPage s a z 0x20 →
    d.toNat % 256 = 1 → s.control.mode = .setup → validate s.shadow s.pageBase = 0 → HasRoom s →
      ∃ t, exec (.modeRequestRun 0 a z d) s = .next t ∧
        t.control =
          { mode := .run, rejectReason := 0, fallbackCause := .none, pagesel := s.control.pagesel } ∧
        t.staging = Staging.reset ∧ t.axles = Vector.replicate 8 Axle.reset ∧ t.intake = Intake.reset ∧
        t.feedback = Vector.replicate 4 Feedback.reset ∧ t.hold = Hold.reset ∧
        (∀ b : BogieNo, t.sand.sanders[b] =
          { Sander.reset with
            state := if s.sand.sanders[b].budget = 0 then .empty else .off
            budget := s.sand.sanders[b].budget
            accumulator := s.sand.sanders[b].accumulator }) ∧
        t.sand.windowOpen = false ∧ t.sand.windowTimer = none ∧ t.sand.usedSinceClosing = false ∧
        (∀ b : BogieNo, t.supervision[b] =
          { standing := Request.reset
            late := false
            timer := if b.val < s.shadow.bogieCount then some s.timeBase else none }) ∧
        t.emission = (pageWriteTaken s a z d).emission ∧ t.bus = (pageWriteTaken s a z d).bus ∧
        t.overlay = released 0 s.overlay ∧ t.notices = acked (carriedAcknowledge 0x20 z d) s.notices ∧
        t.shadow = s.shadow ∧ t.timeBase = s.timeBase ∧ t.races = s.races ∧ t.pending = s.pending ∧
        t.lines = lineLevels t

/-- A RUN request in SETUP whose validation fails leaves the mode, keeps the number of the first failing check as the
reject reason and raises CONFIG_REJECTED; a RUN request outside SETUP does so with 9, and a SETUP request that is not at
rest with 8. A SETUP request in SETUP does nothing. The write's other actions are made first (R148, R168). Validation
answers the number of the first of the seven checks on the shadow's bytes that fails, and 0 if none does (R149). -/
def Obligations.ARefusedModeRequestKeepsItsReason : Prop :=
  (∀ (s : State) (a : Address) (z : AccessSize) (d : Word) (reason : Fin 10), OnPage s a z 0x20 →
     d.toNat % 256 = 1 → HasRoom s →
     ((s.control.mode = .setup ∧ validate s.shadow s.pageBase = reason ∧ reason ≠ 0) ∨
       (s.control.mode ≠ .setup ∧ reason = 9)) →
       exec (.modeRequestRun 0 a z d) s = .next (settle
         { pageWriteTaken s a z d with
           control := { s.control with rejectReason := reason }
           axles := unpersisted (carriedMask 0x20 z d) s.axles
           notices :=
             noted .configRejected reason.val s.timeBase (acked (carriedAcknowledge 0x20 z d) s.notices) })) ∧
  (∀ (s : State) (a : Address) (z : AccessSize) (d : Word), OnPage s a z 0x20 → d.toNat % 256 = 2 → HasRoom s →
     (s.active = true →
       ((∃ b, s.shadow.counts b = true ∧ (s.standing b).mode ≠ .hold) ∨
         (s.control.mode = .run ∧ s.shadow.standstillSpeed ≤ s.vref)) →
       exec (.modeRequestSetup 0 a z d) s = .next (settle
         { pageWriteTaken s a z d with
           control := { s.control with rejectReason := 8 }
           axles := unpersisted (carriedMask 0x20 z d) s.axles
           notices := noted .configRejected 8 s.timeBase (acked (carriedAcknowledge 0x20 z d) s.notices) })) ∧
     (s.control.mode = .setup →
       exec (.modeRequestSetup 0 a z d) s = .next (settle
         { pageWriteTaken s a z d with
           axles := unpersisted (carriedMask 0x20 z d) s.axles
           notices := acked (carriedAcknowledge 0x20 z d) s.notices }))) ∧
  (∀ (sh : Shadow) (page : Nat),
     (validate sh page = 0 ↔ ∀ r, 1 ≤ r → r ≤ 7 → RunCheck sh page r) ∧
     ∀ r, 1 ≤ r → r ≤ 7 →
       ((validate sh page).val = r ↔ ¬ RunCheck sh page r ∧ ∀ k, 1 ≤ k → k < r → RunCheck sh page k))

/-- A SETUP request at rest makes SETUP entry: every block takes its SETUP-entry values, the queue and what is in flight
stay, the staging slots and the shadow stay, and the snapshots of speed records go (R41, R64, R93, R107, R122, R139,
R148, R151, R163). That a free D-port then takes the head, for a rewrite it had decided is gone, is the model's reading
(log 9). -/
def Obligations.ASetupRequestAtRestEntersSetup : Prop :=
  ∀ (s : State) (a : Address) (z : AccessSize) (d : Word), OnPage s a z 0x20 →
    d.toNat % 256 = 2 → s.active = true → HasRoom s →
    (∀ b, s.shadow.counts b = true → (s.standing b).mode = .hold) →
    (s.control.mode = .run → s.vref < s.shadow.standstillSpeed) →
      ∃ t, exec (.modeRequestSetup 0 a z d) s = .next t ∧
        t.control =
          { mode := .setup, rejectReason := 0, fallbackCause := .none, pagesel := s.control.pagesel } ∧
        t.axles = Vector.replicate 8 Axle.reset ∧ t.intake = Intake.reset ∧
        t.feedback = Vector.replicate 4 Feedback.reset ∧ t.hold = Hold.reset ∧
        (∀ b : BogieNo, t.sand.sanders[b] =
          { Sander.reset with
            budget := s.sand.sanders[b].budget
            accumulator := s.sand.sanders[b].accumulator }) ∧
        t.sand.windowOpen = false ∧ t.sand.windowTimer = none ∧ t.sand.usedSinceClosing = false ∧
        (∀ b : BogieNo, t.supervision[b] = Supervision.reset) ∧
        t.emission.queue = (pageWriteTaken s a z d).emission.queue ∧
        t.emission.inFlight = s.emission.inFlight ∧ t.emission.streak = 0 ∧
        BogieSet.isEmpty t.emission.rewriteSet = true ∧
        t.emission.decision = (if s.emission.inFlight = none then some .head else none) ∧
        t.bus = (pageWriteTaken s a z d).bus ∧
        t.overlay.snapshots[(0 : Tag)] = none ∧
        (∀ g : Tag, g ≠ 0 → t.overlay.snapshots[g] =
          match s.overlay.snapshots[g] with
          | some p => if p.kind = .speedRecord then none else some p
          | none => none) ∧
        t.notices = acked (carriedAcknowledge 0x20 z d) s.notices ∧
        t.lines.cut = Vector.replicate 4 false ∧ t.lines.alert = alertLevel t ∧
        t.staging = s.staging ∧ t.shadow = s.shadow ∧ t.timeBase = s.timeBase ∧ t.races = s.races ∧
        t.pending = s.pending

/-- A control record write to bytes 0 to 3 with no mode request clears the named persistent flags and lists and
acknowledges the named notices, and is forwarded. The axles are named by byte 1 of the record and the notices by bytes
2 and 3, as far as the write covers them; the rest names nothing (R62, R156, R168). That the bytes of a short write
are the low bytes of the data is the model's choice (log 7). -/
def Obligations.AControlWriteClearsFlagsAndNotices : Prop :=
  (∀ (s : State) (a : Address) (z : AccessSize) (d : Word) (off : Nat), OnPage s a z off →
    0x20 ≤ off → off < 0x24 → (off = 0x20 → d.toNat % 256 = 0) → HasRoom s →
    ∀ c, (c = .clearPersistent 0 a z d ∨ c = .noticeAcknowledge 0 a z d) →
      exec c s = .next (settle
        { pageWriteTaken s a z d with
          axles := unpersisted (carriedMask off z d) s.axles
          notices := acked (carriedAcknowledge off z d) s.notices })) ∧
  (∀ d : Word,
    (carriedMask 0x20 .byte d = 0 ∧ carriedAcknowledge 0x20 .byte d = 0) ∧
    (carriedMask 0x20 .half d = byteOf d 1 ∧ carriedAcknowledge 0x20 .half d = 0) ∧
    (carriedMask 0x20 .word d = byteOf d 1 ∧ carriedAcknowledge 0x20 .word d = le16 (byteOf d 2) (byteOf d 3)) ∧
    (carriedMask 0x21 .byte d = byteOf d 0 ∧ carriedAcknowledge 0x21 .byte d = 0) ∧
    (carriedMask 0x22 .byte d = 0 ∧ carriedAcknowledge 0x22 .byte d = le16 (byteOf d 0) 0) ∧
    (carriedMask 0x22 .half d = 0 ∧ carriedAcknowledge 0x22 .half d = le16 (byteOf d 0) (byteOf d 1)) ∧
    (carriedMask 0x23 .byte d = 0 ∧ carriedAcknowledge 0x23 .byte d = le16 0 (byteOf d 0)))

/-- A refill sets the budget of each bogie whose field the write covers, in every mode; outside SETUP a refill of 0
empties its sander, and one above 0 takes it out of EMPTY, to ON if a cause stands; in every other case its sander
state and timers stay (R118, R168). The data lanes are the model's choice (log 7). -/
def Obligations.ARefillSetsTheBudgets : Prop :=
  ∀ (s : State) (a : Address) (z : AccessSize) (d : Word) (off : Nat), OnPage s a z off →
    0x24 ≤ off → off < 0x2C → z ≠ .byte → HasRoom s →
      ∃ t, exec (.sandRefill 0 a z d) s = .next t ∧
        (∀ (b : BogieNo) (v : Half),
          ((z = .half ∧ off = 0x24 + 2 * b.val ∧ v = d.extractLsb' 0 16) ∨
            (z = .word ∧ off = 0x24 + 2 * b.val ∧ v = d.extractLsb' 0 16) ∨
            (z = .word ∧ off + 2 = 0x24 + 2 * b.val ∧ v = d.extractLsb' 16 16)) →
          t.sand.sanders[b].budget = v ∧ t.sand.sanders[b].accumulator = s.sand.sanders[b].accumulator ∧
          (s.active = false → t.sand.sanders[b] = { s.sand.sanders[b] with budget := v }) ∧
          (s.active = true → v = 0 → t.sand.sanders[b] =
            { Sander.reset with
              state := .empty
              budget := 0
              accumulator := s.sand.sanders[b].accumulator }) ∧
          (s.active = true → v ≠ 0 → s.sand.sanders[b].state ≠ .empty →
            t.sand.sanders[b] = { s.sand.sanders[b] with budget := v }) ∧
          (s.active = true → v ≠ 0 → s.sand.sanders[b].state = .empty →
            (causeStands s s.allStanding b = false → t.sand.sanders[b].state = .off) ∧
            (causeStands s s.allStanding b = true →
              t.sand.sanders[b].state = .on ∧ t.sand.sanders[b].runTimer = some s.timeBase ∧
                t.emission.rewriteSet[b] = true))) ∧
        (∀ b : BogieNo, 0x24 + 2 * b.val + 2 ≤ off ∨ off + z.bytes ≤ 0x24 + 2 * b.val →
          t.sand.sanders[b] = s.sand.sanders[b]) ∧
        SameButSanders { pageWriteTaken s a z d with
          axles := unpersisted 0 s.axles, notices := acked 0 s.notices } t

/-- A read of the device status record or of a notice entry of code 1 to 15 becomes a PAGE_READ entry, and its values,
the bytes of Tables 11-8 and 11-9, are fixed under its master's snapshot, counted before the entry joins; a read of
notice entry 0 takes no snapshot. A read of the control page, of any region, is answered RETRY with no effect when the
queue holds six entries (R8, R43, R63, R124, R126, R147, R157, R160 to R162). -/
def Obligations.AStatusReadFixesItsValues : Prop :=
  (∀ (s : State) (tag : Tag) (a : Address) (z : AccessSize) (off : Nat), OnPage s a z off → HasRoom s →
    (off < 0x20 → exec (.deviceStatusRead tag a z) s = .next (settle
      { s with
        emission := joined { kind := .pageRead z, address := a, tag := tag, retries := 0 } s.emission
        overlay := readOverlay s.overlay tag
          { kind := .deviceStatus
            address := BitVec.ofNat 24 s.pageBase
            values := (deviceStatus s).map some } off z
        bus := heldBy { tag := tag, address := a, size := z, write := none } })) ∧
    (0x200 ≤ off → off < 0x210 → exec (.noticeEntryRead tag a z) s = .next (settle
      { s with
        emission := joined { kind := .pageRead z, address := a, tag := tag, retries := 0 } s.emission
        overlay := { s.overlay with fixed := none }
        bus := heldBy { tag := tag, address := a, size := z, write := none } })) ∧
    (∀ i : Fin 15, 0x210 + 16 * i.val ≤ off → off < 0x220 + 16 * i.val →
      exec (.noticeEntryRead tag a z) s = .next (settle
        { s with
          emission := joined { kind := .pageRead z, address := a, tag := tag, retries := 0 } s.emission
          overlay := readOverlay s.overlay tag
            { kind := .noticeEntry
              address := BitVec.ofNat 24 (s.pageBase + 0x210 + 16 * i.val)
              values := (noticeBytes s i).map some } (off % 16) z
          bus := heldBy { tag := tag, address := a, size := z, write := none } }))) ∧
  (∀ (c : Instr) (s : State) (tag : Tag) (a : Address) (z : AccessSize) (off : Nat), readOf c = some (tag, a, z) →
    OnPage s a z off → ¬ HasRoom s → exec c s = .next (settle { s with bus := answered tag .retry none })) ∧
  (∀ s : State,
    let d := fun i => (deviceStatus s).getD i 0
    (deviceStatus s).length = 32 ∧
    d 0 = (match s.control.mode with | .setup => 0 | .run => 1 | .fallback => 2) ∧
    (d 1).toNat = s.control.rejectReason.val ∧ (d 2).toNat = topNotice s.notices ∧
    d 3 = (match s.hold.latch with | .clear => 0 | .latched => 1 | .settling => 2) ∧
    d 4 = (match s.hold.gate with | .opened => 0 | .closed => 1) ∧
    (d 5).toNat = 6 - s.emission.queue.length ∧
    d 6 = (match s.control.fallbackCause with | .none => 0 | .refLost => 1 | .memoryFault => 2) ∧
    (∀ n : AxleNo,
      ((d 7).getLsbD n.val = true ↔ s.active = true ∧ s.shadow.axleEnabled n = true ∧ s.axles[n].state ≠ .stale) ∧
      ((d 8).getLsbD n.val = true ↔ s.active = true ∧ s.shadow.axleEnabled n = true ∧ s.axles[n].state = .slip) ∧
      ((d 9).getLsbD n.val = true ↔ s.active = true ∧ s.shadow.axleEnabled n = true ∧ s.axles[n].state = .stale) ∧
      ((d 11).getLsbD n.val = true ↔ s.active = true ∧ s.axles[n].persistent = true)) ∧
    (∀ b : BogieNo,
      ((d 10).getLsbD b.val = true ↔ s.active = true ∧ s.supervision[b].late = true) ∧
      ((d 10).getLsbD (4 + b.val) = true ↔ s.emission.rewriteSet[b] = true) ∧
      d (20 + b.val) =
        (match s.sand.sanders[b].state with | .off => 0 | .on => 1 | .dwell => 2 | .pause => 3 | .empty => 4) ∧
      le16 (d (24 + 2 * b.val)) (d (25 + 2 * b.val)) = s.sand.sanders[b].budget) ∧
    le16 (d 12) (d 13) = BitVec.ofNat 16 s.vref ∧ le16 (d 14) (d 15) = pendingSet s.notices ∧
    le32 (d 16) (d 17) (d 18) (d 19) = s.timeBase) ∧
  (∀ (s : State) (i : Fin 15),
    let d := fun k => (noticeBytes s i).getD k 0
    let n := s.notices[i]
    (noticeBytes s i).length = 16 ∧ (d 0).toNat = i.val + 1 ∧ d 1 = (if n.pending = true then 1 else 0) ∧
    d 2 = n.count ∧ d 3 = n.firstIndex ∧ d 4 = n.latestIndex ∧ d 5 = 0 ∧ d 6 = 0 ∧ d 7 = 0 ∧
    le32 (d 8) (d 9) (d 10) (d 11) = n.firstTime ∧ le32 (d 12) (d 13) (d 14) (d 15) = n.latestTime)

/-- After a passed RUN validation an address lies in at most one enabled window and never in the control page as well
(R9, R149). -/
def Obligations.ValidWindowsShareNoAddress : Prop :=
  ∀ (s : State) (a : Address), validate s.shadow s.pageBase = 0 →
    (∀ w v, s.shadow.windowCovers w a = true → s.shadow.windowCovers v a = true → w = v) ∧
    (∀ w, s.shadow.windowCovers w a = true → pageOffset s a = none)

/-! ### Timers -/

/-- A staleness expiry: the axle's fields, AXLE_STALE, the rewrite of its bogie, and the loss of the reference when it
leaves every enabled axle STALE with Vref set. The sanders make their transitions at the axle's exit and at FALLBACK
entry, each in turn by the model's reading (log 13) (R33, R40, R58, R110, R122, R152). -/
def Obligations.AStalenessExpiryMakesTheAxleStale : Prop :=
  ∀ (s : State) (n : AxleNo) (t0 : Word), s.axles[n].staleness = some t0 →
    s.shadow.stalenessTimeout ≤ interval s.timeBase t0 →
      ∃ t, exec (.stalenessExpiry n) s = .next t ∧
        t.axles = s.axles.set n
          { s.axles[n] with
            staleness := none
            fill := 0
            lastSequence := none
            state := .stale
            acceleration := 0 } ∧
        t.notices[NoticeKind.axleStale.slot] =
          s.notices[NoticeKind.axleStale.slot].raised (BitVec.ofNat 8 n.val) s.timeBase ∧
        (s.active = true → t.emission.rewriteSet[s.shadow.axleBogie n] = true) ∧
        ((s.active = true ∧ s.intake.vref.isSome = true ∧
            ∀ m : AxleNo, m ≠ n → s.shadow.axleEnabled m = true → s.axles[m].state = .stale) →
          t.notices[NoticeKind.refLost.slot] =
              s.notices[NoticeKind.refLost.slot].raised 0 s.timeBase ∧
            (s.control.mode = .run →
              t.control = { s.control with mode := .fallback, fallbackCause := .refLost } ∧
                (∀ b, s.shadow.counts b = true → t.emission.rewriteSet[b] = true) ∧
                t.sand = (sandersEvent s.allStanding none
                  { sandersEvent s.allStanding none { s with axles := t.axles } with control := t.control }).sand) ∧
            (s.control.mode = .fallback → t.control = s.control ∧
              t.sand = (sandersEvent s.allStanding none { s with axles := t.axles }).sand)) ∧
        (¬ (s.active = true ∧ s.intake.vref.isSome = true ∧
            ∀ m : AxleNo, m ≠ n → s.shadow.axleEnabled m = true → s.axles[m].state = .stale) →
          t.control = s.control ∧ t.notices = noted .axleStale n.val s.timeBase s.notices ∧
            t.sand = (sandersEvent s.allStanding none { s with axles := t.axles }).sand) ∧
        SameConfiguration s t ∧ t.bus = s.bus ∧ t.intake = s.intake ∧ t.feedback = s.feedback ∧ t.hold = s.hold ∧
        t.supervision = s.supervision ∧ t.overlay = s.overlay ∧ t.emission.queue = s.emission.queue ∧
        t.emission.streak = s.emission.streak ∧ t.emission.inFlight = s.emission.inFlight

/-- A freshness expiry stops the timer and makes the last sequence absent, keeping the latest feedback. A demand timer
expiry stops the timer, makes the bogie LATE, raises DEMAND_LATE and asks for a rewrite (R83, R146). -/
def Obligations.TheFreshnessAndDemandTimersExpire : Prop :=
  (∀ (s : State) (b : BogieNo) (t0 : Word), s.feedback[b].freshness = some t0 →
     s.shadow.feedbackTimeout ≤ interval s.timeBase t0 →
       exec (.freshnessExpiry b) s = .next (settle
         { s with feedback := s.feedback.set b { s.feedback[b] with freshness := none, lastSequence := none } })) ∧
  (∀ (s : State) (b : BogieNo) (t0 : Word), s.active = true → s.supervision[b].late = false →
     s.supervision[b].timer = some t0 → s.shadow.demandTimeout ≤ interval s.timeBase t0 →
       exec (.demandTimerExpiry b) s = .next (settle
         { s with
           supervision := s.supervision.set b { standing := s.standing b, late := true, timer := none }
           notices := noted .demandLate b.val s.timeBase s.notices
           emission := requested b s.emission }))

/-- A release wait expiry stops the wait and raises START_BLOCKED unless blocked reported is set already; a settling
timer expiry stops the timer and sets settled, and the latch enters CLEAR if every bogie is held, at which the sanders
make their transitions (R99, R104, R110). -/
def Obligations.TheHoldTimersExpire : Prop :=
  (∀ (s : State) (t0 : Word), s.hold.releaseWait = some t0 →
     s.shadow.holdReleaseTimeout ≤ interval s.timeBase t0 →
       exec .releaseWaitExpiry s = .next (settle
         { s with
           hold := { s.hold with releaseWait := none, blockedReported := true }
           notices :=
             if s.hold.blockedReported = true then s.notices else noted .startBlocked 0 s.timeBase s.notices })) ∧
  (∀ (s : State) (t0 : Word), s.hold.latch = .settling → s.hold.settling = some t0 →
     s.shadow.rollbackClearTime ≤ interval s.timeBase t0 →
     ((∃ b, s.shadow.counts b = true ∧ s.hold.held[b] = false) →
       exec .settlingTimerExpiry s = .next (settle
         { s with hold := { s.hold with settling := none, settled := true } })) ∧
     ((∀ b, s.shadow.counts b = true → s.hold.held[b] = true) →
       ∃ t, exec .settlingTimerExpiry s = .next t ∧
         SameButSanders
           { s with
             hold :=
               { s.hold with latch := .clear, held := BogieSet.none, settling := none, settled := false } } t ∧
         t.sand = (sandersEvent s.allStanding none { s with hold := t.hold }).sand))

/-- A window timer expiry closes the window and stops its timer, and the sanders make their transitions; a sander in
ON that then has no cause enters DWELL, or OFF with a sand dwell of 0 (R110, R111, R113). -/
def Obligations.AWindowExpiryClosesTheWindow : Prop :=
  ∀ (s : State) (t0 : Word), s.sand.windowTimer = some t0 → s.shadow.hillStartTime ≤ interval s.timeBase t0 →
    ∃ t, exec .windowTimerExpiry s = .next t ∧
      SameButSanders { s with sand := { s.sand with windowOpen := false, windowTimer := none } } t ∧
      t.sand = (sandersEvent s.allStanding none
        { s with sand := { s.sand with windowOpen := false, windowTimer := none } }).sand ∧
      ∀ b : BogieNo, s.active = true → s.sand.sanders[b].state = .on → s.sand.sanders[b].runOverdue = false →
        causeStands { s with sand := { s.sand with windowOpen := false, windowTimer := none } } s.allStanding b =
          false →
        (s.shadow.sandDwell ≠ 0 → t.sand.sanders[b] =
          { s.sand.sanders[b] with state := .dwell, dwellTimer := some s.timeBase }) ∧
        (s.shadow.sandDwell = 0 → t.sand.sanders[b].state = .off)

/-- A dwell expiry in DWELL and a pause expiry in PAUSE take the sander to OFF with its timers stopped, and straight on
to ON, with a new run and a rewrite, if a cause stands; for the dwell that is the model's reading (log 19). A run timer
expiry in ON or DWELL gives PAUSE with the latch CLEAR, and otherwise run overdue (R113 to R115, R119). -/
def Obligations.TheSanderTimersExpire : Prop :=
  (∀ (s : State) (b : BogieNo) (t0 : Word) (c : Instr), s.active = true →
     ((c = .dwellTimerExpiry b ∧ s.sand.sanders[b].state = .dwell ∧ s.sand.sanders[b].dwellTimer = some t0 ∧
         s.shadow.sandDwell ≤ interval s.timeBase t0) ∨
       (c = .pauseTimerExpiry b ∧ s.sand.sanders[b].state = .pause ∧ s.sand.sanders[b].pauseTimer = some t0 ∧
         s.shadow.sandPause ≤ interval s.timeBase t0)) →
       ∃ t, exec c s = .next t ∧ SameButSanders s t ∧
         (∀ e : BogieNo, e ≠ b → t.sand.sanders[e] = s.sand.sanders[e]) ∧
         (causeStands s s.allStanding b = false →
           t.sand.sanders[b] =
             { Sander.reset with
               budget := s.sand.sanders[b].budget
               accumulator := s.sand.sanders[b].accumulator } ∧
           t.emission = s.emission) ∧
         (causeStands s s.allStanding b = true →
           t.sand.sanders[b] =
             { Sander.reset with
               state := .on
               budget := s.sand.sanders[b].budget
               accumulator := s.sand.sanders[b].accumulator
               runTimer := some s.timeBase } ∧
           t.emission.rewriteSet = s.emission.rewriteSet.set b true)) ∧
  (∀ (s : State) (b : BogieNo) (t0 : Word),
     (s.sand.sanders[b].state = .on ∨ s.sand.sanders[b].state = .dwell) →
     s.sand.sanders[b].runTimer = some t0 → s.shadow.maximumSand ≤ interval s.timeBase t0 →
       exec (.runTimerExpiry b) s = .next (settle
         { s with
           sand :=
             { s.sand with
               sanders := s.sand.sanders.set b
                 (if s.hold.latch = .clear then
                   { s.sand.sanders[b] with
                     state := .pause
                     runTimer := none
                     runOverdue := false
                     dwellTimer := none
                     pauseTimer := some s.timeBase }
                 else { s.sand.sanders[b] with runTimer := none, runOverdue := true }) } }))

/-- The fall of a unit: one unit off the budget, SAND_LOW at a crossing of the threshold, SAND_EMPTY at 0, and EMPTY
outside SETUP (R116, R117). The accumulator's loss of 10000 at the fall, and a fall in SETUP, are the model's reading
(log 10). -/
def Obligations.AUnitFallLowersTheBudget : Prop :=
  ∀ (s : State) (b : BogieNo), 10000 ≤ s.sand.sanders[b].accumulator → s.sand.sanders[b].budget ≠ 0 →
    ∃ t, exec (.budgetUnitFall b) s = .next t ∧
      t.sand.sanders[b].budget = s.sand.sanders[b].budget - 1 ∧
      t.sand.sanders[b].accumulator = s.sand.sanders[b].accumulator - 10000 ∧
      (∀ e : BogieNo, e ≠ b → t.sand.sanders[e] = s.sand.sanders[e]) ∧
      (s.sand.sanders[b].budget ≠ 1 ∨ s.active = false →
        t.sand.sanders[b].state = s.sand.sanders[b].state ∧
          t.sand.sanders[b].runTimer = s.sand.sanders[b].runTimer) ∧
      (s.sand.sanders[b].budget = 1 → s.active = true →
        t.sand.sanders[b].state = .empty ∧ t.sand.sanders[b].runTimer = none ∧
          t.sand.sanders[b].dwellTimer = none ∧ t.sand.sanders[b].pauseTimer = none ∧
          t.sand.sanders[b].runOverdue = false) ∧
      t.notices =
        (let low :=
          if s.sand.sanders[b].budget.toNat = s.shadow.sandLow b then
            noted .sandLow b.val s.timeBase s.notices
          else s.notices
        if s.sand.sanders[b].budget = 1 then noted .sandEmpty b.val s.timeBase low else low) ∧
      SameButSanders { s with notices := t.notices } t ∧ t.emission = s.emission

/-- The causes of sand stand as the table of R109 says. At an event outside SETUP a sander makes the transition that
its state, its causes and the latch give it, and asks for a rewrite when it enters ON from OFF or PAUSE, unless its
own bogie's burst is issuing; an event reaches the sanders of bogies 0 to 3 in turn (R109, R110, R112 to R115, R117,
R119). -/
def Obligations.ASanderMakesItsTransition : Prop :=
  (∀ (s : State) (standing : Vector Request 4) (b : BogieNo),
     causeStands s standing b = true ↔
       b.val < s.shadow.bogieCount ∧
         ((standing[b].driverSand = true ∧ s.shadow.standstillSpeed ≤ s.vref ∧ s.control.mode ≠ .fallback) ∨
           ((∃ n : AxleNo, s.axles[n].state = .slip ∧
               (s.shadow.axleBogie n).val < s.shadow.bogieCount ∧
               s.shadow.sandsFor b (s.shadow.axleBogie n) = true ∧
               (standing[s.shadow.axleBogie n].mode = .drive ∨ standing[s.shadow.axleBogie n].mode = .brake)) ∧
             s.shadow.standstillSpeed ≤ s.vref ∧ s.control.mode ≠ .fallback) ∨
           s.hold.latch ≠ .clear ∨
           (s.sand.windowOpen = true ∧ s.control.mode ≠ .fallback))) ∧
  (∀ (s : State) (standing : Vector Request 4) (issuing : Option BogieNo) (b : BogieNo), s.active = true →
     let x := s.sand.sanders[b]
     let t := sanderEvent standing issuing b s
     SameButSanders s t ∧ (∀ e : BogieNo, e ≠ b → t.sand.sanders[e] = s.sand.sanders[e]) ∧
     (x.state = .off → causeStands s standing b = false → t = s) ∧
     (x.state = .off → causeStands s standing b = true →
       t.sand.sanders[b] =
         { x with state := .on, runTimer := some s.timeBase, runOverdue := false, pauseTimer := none } ∧
       t.emission.rewriteSet =
         if issuing = some b then s.emission.rewriteSet else s.emission.rewriteSet.set b true) ∧
     ((x.state = .on ∨ x.state = .dwell) → x.runOverdue = true → s.hold.latch = .clear →
       t.sand.sanders[b] =
         { x with
           state := .pause
           runTimer := none
           runOverdue := false
           dwellTimer := none
           pauseTimer := some s.timeBase } ∧ t.emission = s.emission) ∧
     ((x.state = .on ∨ x.state = .dwell) → (x.runOverdue = false ∨ s.hold.latch ≠ .clear) →
       t.emission = s.emission ∧
       (x.state = .on → causeStands s standing b = true → t = s) ∧
       (x.state = .on → causeStands s standing b = false →
         (s.shadow.sandDwell ≠ 0 →
           t.sand.sanders[b] = { x with state := .dwell, dwellTimer := some s.timeBase }) ∧
         (s.shadow.sandDwell = 0 →
           t.sand.sanders[b] =
             { Sander.reset with budget := x.budget, accumulator := x.accumulator })) ∧
       (x.state = .dwell → causeStands s standing b = true →
         t.sand.sanders[b] = { x with state := .on, dwellTimer := none }) ∧
       (x.state = .dwell → causeStands s standing b = false → t = s)) ∧
     (x.state = .pause → (s.hold.latch = .clear ∨ s.shadow.counts b = false) → t = s) ∧
     (x.state = .pause → s.hold.latch ≠ .clear → s.shadow.counts b = true →
       t.sand.sanders[b] =
         { x with state := .on, runTimer := some s.timeBase, runOverdue := false, pauseTimer := none } ∧
       t.emission.rewriteSet =
         if issuing = some b then s.emission.rewriteSet else s.emission.rewriteSet.set b true) ∧
     (x.state = .empty → t = s)) ∧
  (∀ (s : State) (standing : Vector Request 4) (issuing : Option BogieNo),
     sandersEvent standing issuing s =
       sanderEvent standing issuing 3 (sanderEvent standing issuing 2
         (sanderEvent standing issuing 1 (sanderEvent standing issuing 0 s))))

/-! ### Issues -/

/-- The issue of a demand burst outside SETUP, rewrite or commit, stage by stage: the bogie leaves the rewrite set,
the direction, the hill-start window and the sanders follow, the record is composed, the efforts, ramp completions,
granted share and shortfall are noted, the request stands, and the gate, the release wait, the held bogies and the
latch follow. The sanders stay as they were before the composition, but for the event of a latch that the issue takes
to CLEAR; that this is an event of its own, after that of stage 3, is the model's reading (log 13). A rewrite's
address is that of the record whose implied index in a DEMAND window is the bogie, and a commit's bogie is the implied
index of its address (R9, R61, R72, R90, R92, R96, R97, R99, R100, R104, R110, R111, R128 to R131, R145). -/
def Obligations.ADemandIssueComposesAndAccounts : Prop :=
  (∀ (s : State) (c : Instr) (b : BogieNo) (q : Request) (isRewrite : Bool) (burstOf : BurstOf) (a : Address),
    DemandIssue s c b q isRewrite burstOf a →
      ∃ t w u k, exec c s = .next t ∧
        (w =
          { s with
            hold := { s.hold with direction := q.direction }
            sand := w.sand
            emission :=
              { s.emission with
                rewriteSet := s.emission.rewriteSet.set b false
                streak := if isRewrite then s.emission.streak + 1 else 0 } }) ∧
        (HillStartOpens s b q →
          w.sand = { s.sand with windowOpen := true, windowTimer := some s.timeBase, usedSinceClosing := true }) ∧
        (¬ HillStartOpens s b q → w.sand = s.sand) ∧
        u = sandersEvent (s.allStanding.set b q) (some b) w ∧ k = compose u b q ∧
        t.emission.inFlight = some (.burst burstOf a (emittedRecord u b q k) 0 s.timeBase) ∧
        t.emission.decision = none ∧ t.emission.queue = s.emission.queue ∧
        t.emission.streak = (if isRewrite then s.emission.streak + 1 else 0) ∧
        t.emission.rewriteSet[b] = false ∧
        (∀ e : BogieNo, e ≠ b → s.emission.rewriteSet[e] = true → t.emission.rewriteSet[e] = true) ∧
        u.hold.direction = q.direction ∧ t.hold.direction = q.direction ∧
        t.supervision = s.supervision.set b { s.supervision[b] with standing := q } ∧
        t.feedback = s.feedback.set b { s.feedback[b] with granted := k.granted } ∧
        t.notices =
          (if k.shortfall = true then noted .brakeShortfall b.val s.timeBase s.notices else s.notices) ∧
        (∀ (slot : Slot) (n : AxleNo), s.shadow.axleAt b slot = some n →
          t.axles[n].lastEmitted = (if slot = .a then k.motorA else k.motorB) ∧
          t.axles[n] =
            { s.axles[n] with
              lastEmitted := t.axles[n].lastEmitted
              state :=
                if s.control.mode = .run ∧ s.hold.latch = .clear ∧ s.supervision[b].late = false ∧
                    q.mode = .drive ∧ s.axles[n].state = .recover ∧ q.isolates slot = false ∧
                    q.traction slot ≤ ceiling s n then
                  .grip
                else s.axles[n].state }) ∧
        (∀ n : AxleNo, s.shadow.axleAt b .a ≠ some n → s.shadow.axleAt b .b ≠ some n → t.axles[n] = s.axles[n]) ∧
        (q.mode = .hold → t.hold.gate = .closed ∧ t.hold.blockedReported = false) ∧
        (q.mode ≠ .hold → t.hold.blockedReported = s.hold.blockedReported ∧
          t.hold.gate = (evaluateGate
            { u with
              axles := t.axles
              feedback := t.feedback
              supervision := t.supervision
              notices := t.notices }).hold.gate) ∧
        (s.shadow.counts b = true → t.hold.releaseWait =
          if t.hold.gate = .closed ∧ ∀ e, s.shadow.counts e = true → (t.standing e).mode = .drive then
            if s.hold.gate = .closed ∧ ∀ e, s.shadow.counts e = true → (s.standing e).mode = .drive then
              s.hold.releaseWait
            else some s.timeBase
          else none) ∧
        (LatchConfirmed s b q → t.hold.latch = .clear ∧ t.hold.held = BogieSet.none ∧ t.hold.settling = none ∧
          t.hold.settled = false) ∧
        (¬ LatchConfirmed s b q → t.hold.latch = s.hold.latch ∧ t.hold.settling = s.hold.settling ∧
          t.hold.settled = s.hold.settled ∧
          t.hold.held =
            (if q.mode = .hold ∧ s.hold.latch ≠ .clear then s.hold.held.set b true else s.hold.held)) ∧
        (¬ LatchConfirmed s b q →
          t.sand.sanders = u.sand.sanders ∧ t.emission.rewriteSet = u.emission.rewriteSet) ∧
        (LatchConfirmed s b q →
          let p := sandersEvent t.allStanding none { t with sand := u.sand, emission := u.emission }
          t.sand.sanders = p.sand.sanders ∧ t.emission.rewriteSet = p.emission.rewriteSet) ∧
        t.sand.windowOpen = w.sand.windowOpen ∧ t.sand.windowTimer = w.sand.windowTimer ∧
        t.sand.usedSinceClosing = (if q.mode = .hold then false else w.sand.usedSinceClosing) ∧
        SameConfiguration s t ∧ t.control = s.control ∧ t.bus = s.bus ∧ t.intake = s.intake ∧
        t.overlay = s.overlay) ∧
  (∀ (sh : Shadow) (w : WindowNo) (a : Address) (b : BogieNo), b.val = indexAt sh w a →
    (OnlyCovers sh w a → sh.demandBogie a = b) ∧
    (Covers sh w a → byteAt sh.windows[w] 4 = 1 → (a.toNat - baseAt sh w) % 16 = 0 →
      (∀ v, HoldsRecord sh 1 v b.val → v = w) → sh.demandRecordAddress b = a))

/-- The issue of a SPEED_RECORD or FEEDBACK_RECORD entry starts its burst with the part-owned bytes filled, sets the
streak to 0 and changes nothing else; the other bytes are the snapshot's. The axle or bogie is the implied index of the
entry's address (R9, R34, R85, R135). -/
def Obligations.ARecordIssueFillsThePartOwnedBytes : Prop :=
  (∀ (s : State) (x : Entry) (r : Record), headMayIssue s.emission = true → s.emission.queue.head? = some x →
     (x.kind = .speedRecord r → exec .recordBurstIssue s = .next (settle
       { s with
         emission :=
           { s.emission with
             streak := 0
             decision := none
             inFlight := some (.burst .head x.address
               (fillRecord r (speedOwned s (s.shadow.speedAxle x.address))) 0 s.timeBase) } })) ∧
     (x.kind = .feedbackRecord r → exec .recordBurstIssue s = .next (settle
       { s with
         emission :=
           { s.emission with
             streak := 0
             decision := none
             inFlight := some (.burst .head x.address
               (fillRecord r (feedbackOwned s (s.shadow.feedbackBogie x.address))) 0 s.timeBase) } }))) ∧
  ((∀ (s : State) (n : AxleNo) (r : Record),
     let f := fillRecord r (speedOwned s n)
     let x := s.axles[n]
     (∀ i : Fin 16, i.val ∈ [0, 1, 2, 4, 5, 14] → f[i] = r[i]) ∧ f[15] = ~~~ r[14] ∧
     f[3] = x.state.code ∧ le16 f[6] f[7] = stampOr0 x.lastArrival ∧
     le16 f[8] f[9] = BitVec.ofInt 16 x.slip ∧ le16 f[10] f[11] = BitVec.ofInt 16 x.acceleration ∧
     le16 f[12] f[13] = BitVec.ofNat 16 s.vref) ∧
   (∀ (s : State) (b : BogieNo) (r : Record),
     let f := fillRecord r (feedbackOwned s b)
     (∀ i : Fin 16, (i.val < 10 ∨ i.val = 14) → f[i] = r[i]) ∧ f[15] = ~~~ r[14] ∧
     le16 f[10] f[11] = stampOr0 s.feedback[b].lastArrival ∧
     le16 f[12] f[13] = BitVec.ofNat 16 s.feedback[b].granted)) ∧
  (∀ (sh : Shadow) (w : WindowNo) (a : Address), OnlyCovers sh w a →
     (∀ n : AxleNo, n.val = indexAt sh w a → sh.speedAxle a = n) ∧
     (∀ b : BogieNo, b.val = indexAt sh w a → sh.feedbackBogie a = b))

/-- The issue of a pass or page entry puts on the D-port an access of the entry's own address, size and, for a write,
data, sets the streak to 0 and changes nothing else (R135). -/
def Obligations.APassIssuePresentsTheMastersAccess : Prop :=
  ∀ (s : State) (x : Entry) (z : AccessSize) (w : Option Word), headMayIssue s.emission = true →
    s.emission.queue.head? = some x →
    (((x.kind = .passRead z ∨ x.kind = .pageRead z) ∧ w = none) ∨
      ∃ d, (x.kind = .passWrite z d ∨ x.kind = .pageWrite z d) ∧ w = some d) →
      ∃ t, exec .passAccessIssue s = .next t ∧
        t = settle
          { s with
            emission :=
              { s.emission with
                streak := 0
                decision := none
                inFlight := some (.access s.timeBase) } } ∧
        t.portAccess = some { address := x.address, size := z, write := w }

/-! ### The composer -/

/-- The composer builds the emission of the first of R132's conditions that applies (R91, R98, R105, R132). -/
def Obligations.TheComposerTakesTheFirstThatApplies : Prop :=
  ∀ (s : State) (b : BogieNo) (q : Request),
    (s.control.mode = .fallback → compose s b q = Commands.frictionOnly
      (min (s.shadow.frictionMaximum b) (max (s.shadow.fallbackEffort b) q.brake))) ∧
    (s.control.mode ≠ .fallback → s.hold.latch ≠ .clear → compose s b q = Commands.frictionOnly
      (min (s.shadow.frictionMaximum b) (max (s.shadow.holdEffort b) q.brake))) ∧
    (s.control.mode ≠ .fallback → s.hold.latch = .clear → s.supervision[b].late = true →
      compose s b q = Commands.frictionOnly (s.shadow.fallbackEffort b)) ∧
    (s.control.mode ≠ .fallback → s.hold.latch = .clear → s.supervision[b].late = false →
      (q.mode = .coast → compose s b q = Commands.frictionOnly 0) ∧
      (q.mode = .drive → compose s b q =
        { motorA := shapedMotor s b q .a
          motorB := shapedMotor s b q .b
          friction := if s.hold.gate = .closed then s.shadow.holdEffort b else 0
          granted := 0
          shortfall := false }) ∧
      (q.mode = .brake → compose s b q =
        { motorA := -((blend s b q).shareA : Int)
          motorB := -((blend s b q).shareB : Int)
          friction := (blend s b q).friction
          granted := (blend s b q).electric
          shortfall := decide (s.shadow.shortfallTolerance b < (blend s b q).shortfall) }) ∧
      (q.mode = .hold → compose s b q = Commands.frictionOnly
        (min (s.shadow.frictionMaximum b) (max (s.shadow.holdEffort b) q.brake))))

/-- A shaped motor command: 0 for an empty or isolated slot, and otherwise the smallest of the traction request, the
effective maximum and the ceiling, with the ceilings and the effective maximum of each state (R67 to R71). -/
def Obligations.AShapedMotorIsTheSmallestOfThree : Prop :=
  (∀ (s : State) (b : BogieNo) (q : Request) (slot : Slot),
    (s.shadow.axleAt b slot = none → shapedMotor s b q slot = 0) ∧
    (q.isolates slot = true → shapedMotor s b q slot = 0) ∧
    (∀ n, s.shadow.axleAt b slot = some n → q.isolates slot = false →
      shapedMotor s b q slot = min (q.traction slot) (min (effectiveMaximum s n) (ceiling s n)))) ∧
  (∀ (s : State) (n : AxleNo),
    (s.axles[n].persistent = false → effectiveMaximum s n = s.shadow.maximumEffort n) ∧
    (s.axles[n].persistent = true →
      effectiveMaximum s n = s.shadow.maximumEffort n * s.shadow.persistentCap / 32768) ∧
    (s.axles[n].state = .grip → ceiling s n = s.shadow.maximumEffort n) ∧
    (s.axles[n].state = .creep → ceiling s n = s.axles[n].entryEffort) ∧
    (s.axles[n].state = .slip → ceiling s n = s.axles[n].cutLevel) ∧
    (s.axles[n].state = .stale → ceiling s n = s.shadow.staleLimit n) ∧
    (∀ t0, s.axles[n].state = .recover → s.axles[n].recoverEntry = some t0 →
      ceiling s n = min (s.axles[n].ceilingBase + s.shadow.rampRate * interval s.timeBase t0 / 10000)
        (s.shadow.maximumEffort n)))

/-- The shares of a blend add up to its electric total in proportion to the availabilities, the remainder going to the
lowest eligible slot, and none exceeds its axle's availability; the friction is the rest up to the friction maximum,
released by a sliding axle, and the shortfall is what remains. An eligible axle's availability is its slot's counted
value, faded and limited (R84, R87 to R90). -/
def Obligations.TheBlendSharesAddUp : Prop :=
  (∀ (s : State) (b : BogieNo) (q : Request),
    let x := blend s b q
    let aA := availability s b q .a
    let aB := availability s b q .b
    x.electric = min q.brake (aA + aB) ∧ x.shareA + x.shareB = x.electric ∧ x.shareA ≤ aA ∧ x.shareB ≤ aB ∧
    x.electric * aA / (aA + aB) ≤ x.shareA ∧ x.electric * aB / (aA + aB) ≤ x.shareB ∧
    (eligible s b q .a = true → x.shareB = x.electric * aB / (aA + aB)) ∧
    (eligible s b q .a = false → x.shareA = 0) ∧
    (bogieSlips s b = false → x.friction = min (q.brake - x.electric) (s.shadow.frictionMaximum b)) ∧
    (bogieSlips s b = true → x.friction =
      min (q.brake - x.electric) (s.shadow.frictionMaximum b) * s.shadow.slideRelease b / 32768) ∧
    x.shortfall = q.brake - x.electric - x.friction) ∧
  (∀ (s : State) (b : BogieNo) (q : Request) (slot : Slot),
    (eligible s b q slot = true ↔ ∃ n, s.shadow.axleAt b slot = some n ∧ q.isolates slot = false ∧
      (s.axles[n].state = .grip ∨ s.axles[n].state = .creep ∨ s.axles[n].state = .recover) ∧
      s.shadow.fadeEnd ≤ s.vref) ∧
    (eligible s b q slot = false → availability s b q slot = 0) ∧
    (∀ n, s.shadow.axleAt b slot = some n → eligible s b q slot = true →
      let raw := (counted s b).available slot
      let faded :=
        if s.vref < s.shadow.fadeStart then
          raw * (s.vref - s.shadow.fadeEnd) / (s.shadow.fadeStart - s.shadow.fadeEnd)
        else raw
      availability s b q slot =
        if s.axles[n].state = .recover then min (min faded (effectiveMaximum s n)) (ceiling s n)
        else min faded (effectiveMaximum s n))) ∧
  (∀ (s : State) (b : BogieNo),
    (∀ f, s.feedback[b].latest = some f → s.feedback[b].freshness.isSome = true → f.controller = .ready →
      counted s b = f) ∧
    ((s.feedback[b].latest = none ∨ s.feedback[b].freshness = none ∨
        ∃ f, s.feedback[b].latest = some f ∧ f.controller = .fault) →
      (∀ slot, (counted s b).available slot = 0) ∧ ∀ slot, (counted s b).achieved slot = 0))

/-- With the ranges that RUN validation ensures, no motor command exceeds its axle's maximum effort in magnitude and no
friction command exceeds the bogie's friction maximum (R69, R88, R132). -/
def Obligations.CommandsStayWithinTheirMaxima : Prop :=
  ∀ (s : State) (b : BogieNo) (q : Request),
    s.shadow.persistentCap ≤ 32767 → s.shadow.slideRelease b ≤ 32767 →
    s.shadow.holdEffort b ≤ s.shadow.frictionMaximum b →
    s.shadow.fallbackEffort b ≤ s.shadow.frictionMaximum b →
      (compose s b q).friction ≤ s.shadow.frictionMaximum b ∧
      (∀ n, s.shadow.axleAt b .a = some n → (compose s b q).motorA.natAbs ≤ s.shadow.maximumEffort n) ∧
      (∀ n, s.shadow.axleAt b .b = some n → (compose s b q).motorB.natAbs ≤ s.shadow.maximumEffort n) ∧
      (s.shadow.axleAt b .a = none → (compose s b q).motorA = 0) ∧
      (s.shadow.axleAt b .b = none → (compose s b q).motorB = 0)

/-- The emitted record byte by byte, with the flags of byte 11 and the nozzle (R75, R120, R133). -/
def Obligations.TheEmittedRecordIsFilledAsTheTableSays : Prop :=
  ∀ (s : State) (b : BogieNo) (q : Request) (c : Commands),
    let r := emittedRecord s b q c
    r[0] = q.mode.code ∧ r[1] = q.direction.code ∧ r[2] = q.flags ∧ r[3] = q.gradient ∧
    le16 r[4] r[5] = BitVec.ofInt 16 c.motorA ∧ le16 r[6] r[7] = BitVec.ofInt 16 c.motorB ∧
    le16 r[8] r[9] = BitVec.ofNat 16 c.friction ∧
    ((s.sand.sanders[b].state = .on ∨ s.sand.sanders[b].state = .dwell) →
      r[10] = if s.hold.direction = .fwd then 1 else 2) ∧
    (s.sand.sanders[b].state ≠ .on → s.sand.sanders[b].state ≠ .dwell → r[10] = 0) ∧
    (r[11].getLsbD 0 = true ↔ ∃ n, s.shadow.axleAt b .a = some n ∧ s.axles[n].state = .slip) ∧
    (r[11].getLsbD 1 = true ↔ ∃ n, s.shadow.axleAt b .b = some n ∧ s.axles[n].state = .slip) ∧
    (r[11].getLsbD 2 = true ↔ ∃ slot n, s.shadow.axleAt b slot = some n ∧ s.axles[n].state = .stale) ∧
    (r[11].getLsbD 3 = true ↔ s.supervision[b].late = true) ∧
    (r[11].getLsbD 4 = true ↔ s.control.mode = .fallback) ∧
    (r[11].getLsbD 5 = true ↔ s.hold.latch ≠ .clear) ∧
    (r[11].getLsbD 6 = true ↔ s.hold.gate = .closed) ∧
    (r[11].getLsbD 7 = true ↔ c.shortfall = true) ∧
    le16 r[12] r[13] = stamp s.timeBase ∧ r[14] = q.sequence ∧ r[15] = ~~~ q.sequence

/-! ### The D-port -/

/-- A burst presents its five writes in their order, with the check wrong from the first and right from the fifth. An
ACK before the fifth begins the next write, and to the fifth ends the burst: the head entry leaves the queue and a
DEMAND_COMMIT's master is answered ACK (R124, R134). -/
def Obligations.AnAckCarriesABracketedBurstOn : Prop :=
  (∀ (s : State) (of : BurstOf) (a : Address) (r : Record) (k : Fin 5) (t0 : Word),
     s.emission.inFlight = some (.burst of a r k t0) →
     (k = 0 → s.portAccess =
       some { address := a + 12, size := .word, write := some (le32 r[12] r[13] r[14] r[14]) }) ∧
     (k = 1 → s.portAccess =
       some { address := a, size := .word, write := some (le32 r[0] r[1] r[2] r[3]) }) ∧
     (k = 2 → s.portAccess =
       some { address := a + 4, size := .word, write := some (le32 r[4] r[5] r[6] r[7]) }) ∧
     (k = 3 → s.portAccess =
       some { address := a + 8, size := .word, write := some (le32 r[8] r[9] r[10] r[11]) }) ∧
     (k = 4 → s.portAccess =
       some { address := a + 12, size := .word, write := some (le32 r[12] r[13] r[14] (~~~ r[14])) }) ∧
     r[14] ≠ ~~~ r[14]) ∧
  (∀ (s : State) (d : Word) (of : BurstOf) (a : Address) (r : Record) (k : Fin 5) (t0 : Word) (w : Option Word),
     s.emission.inFlight = some (.burst of a r k t0) → (w = none ∨ w = some t0) →
     (k.val < 4 → exec (.dPortAck d w) s = .next (settle
       { s with
         emission := { s.emission with inFlight := some (.burst of a r (k + 1) s.timeBase) } })) ∧
     (k.val = 4 → ∀ b n, of = .rewrite b n → exec (.dPortAck d w) s = .next (settle
       { s with emission := ended s.emission.queue s.emission })) ∧
     (k.val = 4 → of = .head → ∀ x rest, s.emission.queue = x :: rest → exec (.dPortAck d w) s = .next (settle
       { s with
         emission := ended rest s.emission
         bus := if x.isDemand = true then answered x.tag .ack none else s.bus })))

/-- An ACK to a pass or page access ends it: the entry leaves the queue and its master is answered ACK, a read with
what memory returned under the overlay (R124, R135, R160, R161, R165). That a read carries exactly the bytes of its size
is the model's choice (log 7). -/
def Obligations.AnAckEndsAnAccess : Prop :=
  (∀ (s : State) (d t0 : Word) (x : Entry) (rest : List Entry) (w : Option Word),
     s.emission.inFlight = some (.access t0) → s.emission.queue = x :: rest → (w = none ∨ w = some t0) →
       exec (.dPortAck d w) s = .next (settle
         { s with
           emission := ended rest s.emission
           overlay := { s.overlay with fixed := none }
           bus := answered x.tag .ack (readData x d s) })) ∧
  (∀ (s : State) (x : Entry) (d : Word) (z : AccessSize),
     ((x.kind = .passRead z ∨ x.kind = .pageRead z) →
       (∀ f, s.overlay.fixed = some f →
         readData x d s = some (List.zipWith (fun o m => o.getD m) f (dataBytes z d))) ∧
       (s.overlay.fixed = none → pageOffset s x.address = none → readData x d s = some (dataBytes z d)) ∧
       (∀ off, s.overlay.fixed = none → pageOffset s x.address = some off →
         ∀ i, i < z.bytes →
           (readData x d s).bind (fun l => l[i]?) =
             if 0x40 ≤ off + i ∧ off + i < 0x1A0 then some (shadowByte s.shadow (off + i))
             else if 0x200 ≤ off + i ∧ off + i < 0x210 then some 0
             else (dataBytes z d)[i]?)) ∧
     (∀ w, (x.kind = .passWrite z w ∨ x.kind = .pageWrite z w) → readData x d s = none))

/-- A failed write of a burst with retry count 0 restarts the burst at write 1 with the same words and retry count 1.
The failure of a pass or page access is final: its master is answered ERR, the entry leaves the queue, the fixed
values are discarded and no notice is raised. An answer to an access that its timeout has failed is disregarded, be it
that a restart is in flight; that an answer can name its access is the model's choice (log 22) (R11, R127, R136, R137,
R161). -/
def Obligations.AFirstFailureRestartsOrAnswersErr : Prop :=
  (∀ (s : State) (c : Instr) (a : Address) (r : Record) (k : Fin 5) (t0 : Word), FailsFlight s c →
     (∀ b, s.emission.inFlight = some (.burst (.rewrite b 0) a r k t0) → exec c s = .next (settle
       { s with
         emission := { s.emission with inFlight := some (.burst (.rewrite b 1) a r 0 s.timeBase) } })) ∧
     (∀ x rest, s.emission.inFlight = some (.burst .head a r k t0) → s.emission.queue = x :: rest →
       x.retries = 0 → exec c s = .next (settle
         { s with
           emission :=
             { s.emission with
               queue := { x with retries := 1 } :: rest
               inFlight := some (.burst .head a r 0 s.timeBase) } }))) ∧
  (∀ (s : State) (c : Instr) (t0 : Word) (x : Entry) (rest : List Entry), FailsFlight s c →
     s.emission.inFlight = some (.access t0) → s.emission.queue = x :: rest →
       exec c s = .next (settle
         { s with
           emission := ended rest s.emission
           overlay := { s.overlay with fixed := none }
           bus := answered x.tag .err none })) ∧
  (∀ (s : State) (c : Instr) (d w : Word), (c = .dPortAck d (some w) ∨ c = .dPortErr (some w)) →
     (∀ f, s.emission.inFlight = some f → f.start ≠ w) → exec c s = .next (settle s)) ∧
  (∀ (s : State) (f : Flight), s.emission.inFlight = some f → 64 ≤ interval s.timeBase f.start →
     ∃ t, exec .dPortTimeout s = .next t ∧ ∀ (c : Instr) (d : Word),
       (c = .dPortAck d (some f.start) ∨ c = .dPortErr (some f.start)) → exec c t = .next t)

/-- The final failure of a record burst raises MEMORY_FAULT with the record's window; a DEMAND_COMMIT's host is
answered ERR, and a demand burst or a rewrite takes RUN to FALLBACK with cause 2, at which the sanders make their
transitions, and asks for a rewrite of every bogie; the arbiter then decides. That the decision sees the rewrites of
the FALLBACK entry, an end's effects coming before the end's decision, is the model's reading of R127 (log 9) (R9,
R110, R122, R127, R138, R152). -/
def Obligations.AFinalFailureRaisesMemoryFault : Prop :=
  (∀ (s : State) (c : Instr) (of : BurstOf) (a : Address) (r : Record) (k : Fin 5) (t0 : Word) (isDemand : Bool)
    (queue : List Entry) (bus : Bus), FailsFlight s c → s.emission.inFlight = some (.burst of a r k t0) →
    ((∃ b, of = .rewrite b 1 ∧ isDemand = true ∧ queue = s.emission.queue ∧ bus = s.bus) ∨
      (of = .head ∧ ∃ x, s.emission.queue = x :: queue ∧ x.retries = 1 ∧ isDemand = x.isDemand ∧
        bus = if x.isDemand = true then answered x.tag .err none else s.bus)) →
      ∃ t, exec c s = .next t ∧
        t.notices = noted .memoryFault (s.shadow.windowNumber a) s.timeBase s.notices ∧
        t.emission.queue = queue ∧ t.emission.inFlight = none ∧ t.emission.streak = s.emission.streak ∧
        t.emission.decision = t.emission.choice ∧ t.bus = bus ∧
        (isDemand = true → s.control.mode = .run →
          t.control = { s.control with mode := .fallback, fallbackCause := .memoryFault } ∧
            (∀ b, s.shadow.counts b = true → t.emission.rewriteSet[b] = true) ∧
            t.sand = (sandersEvent s.allStanding none { s with control := t.control }).sand ∧
            t.lines.cut = Vector.replicate 4 true) ∧
        ((isDemand = false ∨ s.control.mode ≠ .run) →
          t.control = s.control ∧ t.sand = s.sand ∧ t.emission.rewriteSet = s.emission.rewriteSet) ∧
        SameConfiguration s t ∧ t.axles = s.axles ∧ t.intake = s.intake ∧ t.feedback = s.feedback ∧
        t.hold = s.hold ∧ t.supervision = s.supervision ∧ t.overlay = s.overlay) ∧
  (∀ (sh : Shadow) (w : WindowNo) (a : Address), OnlyCovers sh w a → sh.windowNumber a = w.val)

/-! ### The reference speed, the adhesion states and the latch -/

/-- The candidate speeds are those of the latest GOOD samples of the enabled axles that are not STALE, the axle being
stored counted in (R35), and the vehicle mode chooses the largest or the smallest of them (R36). -/
def Obligations.TheCandidateSpeedFollowsTheVehicleMode : Prop :=
  ∀ (s : State) (n : AxleNo),
    (∀ v, v ∈ candidateSpeeds s n ↔ ∃ m : AxleNo, s.shadow.axleEnabled m = true ∧
      (s.axles[m].state ≠ .stale ∨ m = n) ∧ s.axles[m].latest = some { speed := v, quality := .good }) ∧
    ((∃ b, s.shadow.counts b = true ∧ (s.standing b).mode = .brake) →
      candidateSpeed s n = (candidateSpeeds s n).max?) ∧
    ((∀ b, s.shadow.counts b = true → (s.standing b).mode ≠ .brake) →
      (∃ b, s.shadow.counts b = true ∧ (s.standing b).mode = .drive) →
      candidateSpeed s n = (candidateSpeeds s n).min?) ∧
    ((∀ b, s.shadow.counts b = true → (s.standing b).mode = .coast ∨ (s.standing b).mode = .hold) →
      candidateSpeed s n = (candidateSpeeds s n).max?)

/-- An unset Vref takes the candidate speed at once; a set one moves toward it by at most the allowed step, with the
elapsed counter restarted or counting on; an empty candidate set leaves both as they were. Outside SETUP the counter
counts microseconds, Vref set or not, and it stops at its last value (R37 to R39); in SETUP it stands (R41). -/
def Obligations.VrefMovesWithinTheSlope : Prop :=
  (∀ (x : Intake) (slope c : Nat), x.vref = none → x.toward slope c = { vref := some c, elapsed := 0 }) ∧
  (∀ (x : Intake) (slope c v : Nat), x.vref = some v →
    let allowed := slope * x.elapsed / 100000
    let d := (c - v) + (v - c)
    (d ≤ allowed → x.toward slope c = { vref := some c, elapsed := 0 }) ∧
    (allowed < d → 1 ≤ allowed → v < c → x.toward slope c = { vref := some (v + allowed), elapsed := 0 }) ∧
    (allowed < d → 1 ≤ allowed → c < v → x.toward slope c = { vref := some (v - allowed), elapsed := 0 }) ∧
    (allowed < d → allowed = 0 → x.toward slope c = x)) ∧
  (∀ (s : State) (n : AxleNo),
    (evaluateVref n s).intake =
      match candidateSpeed s n with
      | some c => s.intake.toward s.shadow.slope c
      | none => s.intake) ∧
  (∀ s : State, (tick s).intake = if s.active = true then s.intake.tick else s.intake) ∧
  (∀ x : Intake, x.elapsed < 16777215 → x.tick.elapsed = x.elapsed + 1) ∧
  (∀ x : Intake, x.elapsed = 16777215 → x.tick.elapsed = 16777215) ∧
  (∀ x : Intake, x.tick.vref = x.vref)

/-- The creep and slip thresholds at the present Vref, an unset Vref being 0 (R50). The acceleration is 0 while the
axle warms, and otherwise the estimator's sum shifted right with rounding toward minus infinity and saturated to 16
bits (R47, R48). The slip magnitude and the acceleration criterion follow the standing mode of the axle's bogie (R45,
R49), and the slip and creep conditions follow from them and the thresholds (R51). -/
def Obligations.TheThresholdsAndTheEstimator : Prop :=
  (∀ s : State,
     creepThreshold s =
       s.shadow.creepAbsolute + (match s.intake.vref with | some v => v | none => 0) * s.shadow.creepFraction / 32768 ∧
     slipThreshold s =
       s.shadow.slipAbsolute + (match s.intake.vref with | some v => v | none => 0) * s.shadow.slipFraction / 32768) ∧
  (∀ (sh : Shadow) (x : Axle),
     (x.fill < 8 → estimate sh x = 0) ∧
     (8 ≤ x.fill → ∃ v : Int, v * 2 ^ (15 - sh.gain) ≤ estimatorSum sh x ∧
       estimatorSum sh x < (v + 1) * 2 ^ (15 - sh.gain) ∧
       (-32768 ≤ v → v ≤ 32767 → estimate sh x = v) ∧
       (32767 < v → estimate sh x = 32767) ∧ (v < -32768 → estimate sh x = -32768)) ∧
     estimatorSum sh x =
       sh.coefficient 0 * x.ring[x.position - 1] + sh.coefficient 1 * x.ring[x.position - 2] +
       sh.coefficient 2 * x.ring[x.position - 3] + sh.coefficient 3 * x.ring[x.position - 4] +
       sh.coefficient 4 * x.ring[x.position - 5] + sh.coefficient 5 * x.ring[x.position - 6] +
       sh.coefficient 6 * x.ring[x.position - 7] + sh.coefficient 7 * x.ring[x.position]) ∧
  (∀ (s : State) (n : AxleNo),
     let x := s.axles[n]
     let mode := (s.standing (s.shadow.axleBogie n)).mode
     let a : Int := s.shadow.accelerationThreshold
     axleMode s n = mode ∧
     (mode = .drive → (axleMagnitude s n : Int) = max x.slip 0) ∧
     (mode = .brake → (axleMagnitude s n : Int) = max (-x.slip) 0) ∧
     ((mode = .coast ∨ mode = .hold) → (axleMagnitude s n : Int) = max x.slip (-x.slip)) ∧
     (slipCondition s n = true ↔ slipThreshold s ≤ axleMagnitude s n ∨ (mode = .drive ∧ a < x.acceleration) ∨
       (mode = .brake ∧ x.acceleration < -a)) ∧
     (creepCondition s n = true ↔ creepThreshold s ≤ axleMagnitude s n ∧ slipCondition s n = false))

/-- The transition that an evaluated sample makes from each adhesion state, and the sanders' transitions at a SLIP entry
and a SLIP exit (R52, R53, R54, R56, R57, R59, R110). -/
def Obligations.AnEvaluatedSampleMakesItsTransition : Prop :=
  ∀ (s : State) (n : AxleNo),
    let x := s.axles[n]
    let t := transition n s
    let m := axleMagnitude s n
    let a : Int := s.shadow.accelerationThreshold
    (∀ e : AxleNo, e ≠ n → t.axles[e] = s.axles[e]) ∧
    ((x.state = .grip ∨ x.state = .creep ∨ x.state = .recover) → slipCondition s n = true →
      t.axles[n].state = .slip ∧ t.axles[n].entryEffort = x.lastEmitted.natAbs ∧
        t.axles[n].cutLevel =
          (if axleMode s n = .drive then x.lastEmitted.natAbs * s.shadow.cutFraction / 32768 else 0) ∧
        t.axles[n].slipEntry = some s.timeBase ∧
        t.notices[NoticeKind.slipEntry.slot] =
          s.notices[NoticeKind.slipEntry.slot].raised (BitVec.ofNat 8 n.val) s.timeBase ∧
        (s.active = true → t.emission.rewriteSet[s.shadow.axleBogie n] = true) ∧
        t.sand = (sandersEvent s.allStanding none { s with axles := t.axles }).sand) ∧
    (x.state = .grip → slipCondition s n = false → creepThreshold s ≤ m →
      t = { s with axles := s.axles.set n { x with state := .creep, entryEffort := x.lastEmitted.natAbs } }) ∧
    (x.state = .grip → slipCondition s n = false → m < creepThreshold s → t = s) ∧
    (x.state = .creep → slipCondition s n = false → m < creepThreshold s - s.shadow.hysteresis →
      t = { s with axles := s.axles.set n { x with state := .grip } }) ∧
    (x.state = .creep → slipCondition s n = false → creepThreshold s - s.shadow.hysteresis ≤ m → t = s) ∧
    (∀ t0, x.state = .slip → x.slipEntry = some t0 →
      (s.shadow.slipDwell ≤ interval s.timeBase t0 ∧ m < creepThreshold s ∧ -a ≤ x.acceleration ∧
          x.acceleration ≤ a →
        t.axles[n] =
          { x with state := .recover, ceilingBase := x.cutLevel, recoverEntry := some s.timeBase } ∧
        t = sandersEvent s.allStanding none { s with axles := t.axles }) ∧
      (¬ (s.shadow.slipDwell ≤ interval s.timeBase t0 ∧ m < creepThreshold s ∧ -a ≤ x.acceleration ∧
          x.acceleration ≤ a) → t = s)) ∧
    (x.state = .recover → slipCondition s n = false → t = s) ∧
    (x.state = .stale → t =
      { s with
        axles := s.axles.set n
          { x with state := .recover, ceilingBase := s.shadow.staleLimit n, recoverEntry := some s.timeBase } })

/-- The slip-entry list keeps the newest four times, and the persistent test holds of four times that lie within the
window (R55). -/
def Obligations.FourSlipsInTheWindowArePersistent : Prop :=
  (∀ (l : List Word) (t : Word), l.length < 4 → joinEntries l t = l ++ [t]) ∧
  (∀ t0 t1 t2 t3 t : Word, joinEntries [t0, t1, t2, t3] t = [t1, t2, t3, t]) ∧
  (∀ (w : Nat) (t0 t1 t2 t3 : Word), persistentTest w [t0, t1, t2, t3] = true ↔ interval t3 t0 ≤ w) ∧
  (∀ (w : Nat) (l : List Word), l.length < 4 → persistentTest w l = false) ∧
  (∀ (n : AxleNo) (s : State),
    (enterSlip n s).axles[n].slipEntries = joinEntries s.axles[n].slipEntries s.timeBase ∧
    ((enterSlip n s).axles[n].persistent = true ↔ s.axles[n].persistent = true ∨
      persistentTest s.shadow.persistentWindow (joinEntries s.axles[n].slipEntries s.timeBase) = true) ∧
    (enterSlip n s).notices[NoticeKind.persistentSlip.slot] =
      if persistentTest s.shadow.persistentWindow (joinEntries s.axles[n].slipEntries s.timeBase) then
        s.notices[NoticeKind.persistentSlip.slot].raised (BitVec.ofNat 8 n.val) s.timeBase
      else s.notices[NoticeKind.persistentSlip.slot])

/-- A latching: the latch, ROLLBACK with the axle, the gate closed with the release wait restarted if it may run, and
a rewrite of every bogie (R99, R102). An evaluation of Vref outside SETUP takes a LATCHED latch to SETTLING below the
standstill speed, with the settling timer started, and a SETTLING one back to LATCHED at or above it, the held bogies
kept (R103). At each of the two the sanders make their transitions (R110). -/
def Obligations.ALatchingTakesTheTram : Prop :=
  (∀ (s : State) (n : AxleNo), s.active = true →
    let t := latchRollback n s
    t.hold.latch = .latched ∧ t.hold.held = BogieSet.none ∧ t.hold.settling = none ∧ t.hold.settled = false ∧
    t.notices = noted .rollback n.val s.timeBase s.notices ∧
    t.hold.gate = .closed ∧ t.hold.blockedReported = false ∧
    t.sand = { (sandersEvent s.allStanding none { s with hold := t.hold }).sand with usedSinceClosing := false } ∧
    (∀ b : BogieNo, t.emission.rewriteSet[b] = true ↔
      s.emission.rewriteSet[b] = true ∨ s.shadow.counts b = true) ∧
    t.axles = s.axles ∧ t.intake = s.intake ∧ t.feedback = s.feedback ∧ t.supervision = s.supervision ∧
    t.control = s.control ∧ t.emission.queue = s.emission.queue ∧ t.hold.direction = s.hold.direction ∧
    t.hold.releaseWait =
      (if ∀ b, s.shadow.counts b = true → (s.standing b).mode = .drive then some s.timeBase else none)) ∧
  (∀ (s : State) (n : AxleNo), s.active = true →
    let t := evaluateVref n s
    (s.hold.latch = .latched → t.vref < s.shadow.standstillSpeed → t.hold =
      { s.hold with latch := .settling, settling := some s.timeBase, settled := false }) ∧
    (s.hold.latch = .latched → s.shadow.standstillSpeed ≤ t.vref → t.hold = s.hold) ∧
    (s.hold.latch = .settling → s.shadow.standstillSpeed ≤ t.vref → t.hold =
      { s.hold with latch := .latched, settling := none, settled := false }) ∧
    (s.hold.latch = .settling → t.vref < s.shadow.standstillSpeed → t.hold = s.hold) ∧
    (s.hold.latch = .clear → t.hold = s.hold) ∧ t.notices = s.notices ∧
    (let p := sandersEvent s.allStanding none { s with intake := t.intake, hold := t.hold }
     t.sand = p.sand ∧ t.emission.rewriteSet = p.emission.rewriteSet))

/-! ### Notices -/

/-- Raising a notice acts on its entry as R155 says and on no other. The top notice code is the lowest pending code, or
0, and the pending set has bit k for code k (R155, R157). -/
def Obligations.ARaiseCountsAndTheTopIsTheLowestCode : Prop :=
  (∀ (s : State) (k : NoticeKind) (i : Nat),
     let e := s.notices[k.slot]
     let f := (raise k i s).notices[k.slot]
     (e.pending = false → f =
       { pending := true
         count := 1
         firstIndex := BitVec.ofNat 8 i
         latestIndex := BitVec.ofNat 8 i
         firstTime := s.timeBase
         latestTime := s.timeBase }) ∧
     (e.pending = true → f =
       { pending := true
         count := if e.count = 255 then 255 else e.count + 1
         firstIndex := e.firstIndex
         latestIndex := BitVec.ofNat 8 i
         firstTime := e.firstTime
         latestTime := s.timeBase }) ∧
     (∀ j : Fin 15, j ≠ k.slot → (raise k i s).notices[j] = s.notices[j]) ∧
     raise k i s = { s with notices := (raise k i s).notices }) ∧
  (∀ t : Vector Notice 15,
     ((∀ i : Fin 15, t[i].pending = false) → topNotice t = 0) ∧
     (∀ i : Fin 15, t[i].pending = true → (∀ j : Fin 15, j < i → t[j].pending = false) → topNotice t = i.val + 1) ∧
     (∀ i : Fin 15, (pendingSet t).getLsbD (i.val + 1) = t[i].pending) ∧ (pendingSet t).getLsbD 0 = false)

/-! ### Invariants -/

/-- The invariants hold after power-on. -/
def Obligations.TheInvariantsHoldAtReset : Prop :=
  LinesSettled State.reset ∧ NoticesSound State.reset ∧ EmptySound State.reset ∧ RewritesSound State.reset ∧
    GateSound State.reset ∧ LatchSound State.reset ∧ QueueSound State.reset ∧ TimersSound State.reset ∧
    ArbiterSound State.reset.emission

/-- Every step keeps CUT0 to CUT3 and ALERT at the levels of R76 and R158: cut line k asserted exactly in RUN with an
axle that names it in SLIP or the latch not CLEAR, and in FALLBACK; ALERT exactly while a pending kind has route 1. -/
def Obligations.EveryStepKeepsTheLinesSettled : Prop :=
  ∀ s t : State, LinesSettled s → step s = .next t →
    (∀ k : Fin 4, t.lines.cut[k] = true ↔
      (t.control.mode = .run ∧ ∃ n : AxleNo, byteAt t.shadow.axles[n] 3 = k.val ∧ t.axles[n].state = .slip) ∨
        (t.control.mode = .run ∧ t.hold.latch ≠ .clear) ∨ t.control.mode = .fallback) ∧
      (t.lines.alert = true ↔ ∃ i : Fin 15, t.notices[i].pending = true ∧ byteAt t.shadow.routes (i.val + 1) = 1)

/-- Every step keeps a kind pending exactly while its count is at least one, and cleared entries clear (R154). -/
def Obligations.EveryStepKeepsTheNoticesSound : Prop :=
  ∀ s t : State, NoticesSound s → step s = .next t → NoticesSound t

/-- Every step keeps a sander in EMPTY exactly while the mode is RUN or FALLBACK and its budget is zero (R117). -/
def Obligations.EveryStepKeepsEmptyForAnEmptyBudget : Prop :=
  ∀ s t : State, EmptySound s → step s = .next t → EmptySound t

/-- Every step keeps the rewrite set empty in SETUP (R126), and the demand timer of a LATE bogie and the staleness
timer of a STALE axle stopped (R32, R146). -/
def Obligations.EveryStepKeepsRewritesAndTimersSound : Prop :=
  (∀ s t : State, RewritesSound s → step s = .next t → RewritesSound t) ∧
  (∀ s t : State, TimersSound s → step s = .next t → TimersSound t)

/-- Every step keeps the gate CLOSED while any standing mode is HOLD outside SETUP (R95), and the latch's held bogies,
timer and settled fields fit for its state (R102 to R104). -/
def Obligations.EveryStepKeepsTheGateAndLatchSound : Prop :=
  (∀ s t : State, GateSound s → step s = .next t → GateSound t) ∧
  (∀ s t : State, LatchSound s → step s = .next t → LatchSound t)

/-- Every step keeps at most six entries, of which at most the youngest is non-posted and holds the bus, and what is
in flight fit for the head (R5, R123), and with the D-port free a decision of the arbiter exactly while work waits,
for work that waits. That the arbiter decides once and its decision stands until the issue is the model's reading of
R127, kept in its own field (log 9). -/
def Obligations.EveryStepKeepsTheQueueSound : Prop :=
  (∀ s t : State, QueueSound s → step s = .next t → QueueSound t) ∧
  (∀ s t : State, ArbiterSound s.emission → step s = .next t → ArbiterSound t.emission)

end Statements
end

