-- ==== Sys2Proof/Laws/State.lean ====
section
/-! SUPPORT. Each field after each replacement of one block of State, so that no proof unfolds a replacement. -/

namespace Sys2Proof.Machine

variable (s : State)

/-! ### After `withTimeBase` -/

@[simp] theorem timeBase_withTimeBase (x : Word) : (s.withTimeBase x).timeBase = x := rfl
@[simp] theorem control_withTimeBase (x : Word) : (s.withTimeBase x).control = s.control := rfl
@[simp] theorem shadow_withTimeBase (x : Word) : (s.withTimeBase x).shadow = s.shadow := rfl
@[simp] theorem bus_withTimeBase (x : Word) : (s.withTimeBase x).bus = s.bus := rfl
@[simp] theorem staging_withTimeBase (x : Word) : (s.withTimeBase x).staging = s.staging := rfl
@[simp] theorem axles_withTimeBase (x : Word) : (s.withTimeBase x).axles = s.axles := rfl
@[simp] theorem intake_withTimeBase (x : Word) : (s.withTimeBase x).intake = s.intake := rfl
@[simp] theorem feedback_withTimeBase (x : Word) : (s.withTimeBase x).feedback = s.feedback := rfl
@[simp] theorem hold_withTimeBase (x : Word) : (s.withTimeBase x).hold = s.hold := rfl
@[simp] theorem sand_withTimeBase (x : Word) : (s.withTimeBase x).sand = s.sand := rfl
@[simp] theorem supervision_withTimeBase (x : Word) : (s.withTimeBase x).supervision = s.supervision := rfl
@[simp] theorem emission_withTimeBase (x : Word) : (s.withTimeBase x).emission = s.emission := rfl
@[simp] theorem notices_withTimeBase (x : Word) : (s.withTimeBase x).notices = s.notices := rfl
@[simp] theorem overlay_withTimeBase (x : Word) : (s.withTimeBase x).overlay = s.overlay := rfl
@[simp] theorem lines_withTimeBase (x : Word) : (s.withTimeBase x).lines = s.lines := rfl
@[simp] theorem races_withTimeBase (x : Word) : (s.withTimeBase x).races = s.races := rfl
@[simp] theorem pending_withTimeBase (x : Word) : (s.withTimeBase x).pending = s.pending := rfl

/-! ### After `withControl` -/

@[simp] theorem timeBase_withControl (x : Control) : (s.withControl x).timeBase = s.timeBase := rfl
@[simp] theorem control_withControl (x : Control) : (s.withControl x).control = x := rfl
@[simp] theorem shadow_withControl (x : Control) : (s.withControl x).shadow = s.shadow := rfl
@[simp] theorem bus_withControl (x : Control) : (s.withControl x).bus = s.bus := rfl
@[simp] theorem staging_withControl (x : Control) : (s.withControl x).staging = s.staging := rfl
@[simp] theorem axles_withControl (x : Control) : (s.withControl x).axles = s.axles := rfl
@[simp] theorem intake_withControl (x : Control) : (s.withControl x).intake = s.intake := rfl
@[simp] theorem feedback_withControl (x : Control) : (s.withControl x).feedback = s.feedback := rfl
@[simp] theorem hold_withControl (x : Control) : (s.withControl x).hold = s.hold := rfl
@[simp] theorem sand_withControl (x : Control) : (s.withControl x).sand = s.sand := rfl
@[simp] theorem supervision_withControl (x : Control) : (s.withControl x).supervision = s.supervision := rfl
@[simp] theorem emission_withControl (x : Control) : (s.withControl x).emission = s.emission := rfl
@[simp] theorem notices_withControl (x : Control) : (s.withControl x).notices = s.notices := rfl
@[simp] theorem overlay_withControl (x : Control) : (s.withControl x).overlay = s.overlay := rfl
@[simp] theorem lines_withControl (x : Control) : (s.withControl x).lines = s.lines := rfl
@[simp] theorem races_withControl (x : Control) : (s.withControl x).races = s.races := rfl
@[simp] theorem pending_withControl (x : Control) : (s.withControl x).pending = s.pending := rfl

/-! ### After `withShadow` -/

@[simp] theorem timeBase_withShadow (x : Shadow) : (s.withShadow x).timeBase = s.timeBase := rfl
@[simp] theorem control_withShadow (x : Shadow) : (s.withShadow x).control = s.control := rfl
@[simp] theorem shadow_withShadow (x : Shadow) : (s.withShadow x).shadow = x := rfl
@[simp] theorem bus_withShadow (x : Shadow) : (s.withShadow x).bus = s.bus := rfl
@[simp] theorem staging_withShadow (x : Shadow) : (s.withShadow x).staging = s.staging := rfl
@[simp] theorem axles_withShadow (x : Shadow) : (s.withShadow x).axles = s.axles := rfl
@[simp] theorem intake_withShadow (x : Shadow) : (s.withShadow x).intake = s.intake := rfl
@[simp] theorem feedback_withShadow (x : Shadow) : (s.withShadow x).feedback = s.feedback := rfl
@[simp] theorem hold_withShadow (x : Shadow) : (s.withShadow x).hold = s.hold := rfl
@[simp] theorem sand_withShadow (x : Shadow) : (s.withShadow x).sand = s.sand := rfl
@[simp] theorem supervision_withShadow (x : Shadow) : (s.withShadow x).supervision = s.supervision := rfl
@[simp] theorem emission_withShadow (x : Shadow) : (s.withShadow x).emission = s.emission := rfl
@[simp] theorem notices_withShadow (x : Shadow) : (s.withShadow x).notices = s.notices := rfl
@[simp] theorem overlay_withShadow (x : Shadow) : (s.withShadow x).overlay = s.overlay := rfl
@[simp] theorem lines_withShadow (x : Shadow) : (s.withShadow x).lines = s.lines := rfl
@[simp] theorem races_withShadow (x : Shadow) : (s.withShadow x).races = s.races := rfl
@[simp] theorem pending_withShadow (x : Shadow) : (s.withShadow x).pending = s.pending := rfl

/-! ### After `withBus` -/

@[simp] theorem timeBase_withBus (x : Bus) : (s.withBus x).timeBase = s.timeBase := rfl
@[simp] theorem control_withBus (x : Bus) : (s.withBus x).control = s.control := rfl
@[simp] theorem shadow_withBus (x : Bus) : (s.withBus x).shadow = s.shadow := rfl
@[simp] theorem bus_withBus (x : Bus) : (s.withBus x).bus = x := rfl
@[simp] theorem staging_withBus (x : Bus) : (s.withBus x).staging = s.staging := rfl
@[simp] theorem axles_withBus (x : Bus) : (s.withBus x).axles = s.axles := rfl
@[simp] theorem intake_withBus (x : Bus) : (s.withBus x).intake = s.intake := rfl
@[simp] theorem feedback_withBus (x : Bus) : (s.withBus x).feedback = s.feedback := rfl
@[simp] theorem hold_withBus (x : Bus) : (s.withBus x).hold = s.hold := rfl
@[simp] theorem sand_withBus (x : Bus) : (s.withBus x).sand = s.sand := rfl
@[simp] theorem supervision_withBus (x : Bus) : (s.withBus x).supervision = s.supervision := rfl
@[simp] theorem emission_withBus (x : Bus) : (s.withBus x).emission = s.emission := rfl
@[simp] theorem notices_withBus (x : Bus) : (s.withBus x).notices = s.notices := rfl
@[simp] theorem overlay_withBus (x : Bus) : (s.withBus x).overlay = s.overlay := rfl
@[simp] theorem lines_withBus (x : Bus) : (s.withBus x).lines = s.lines := rfl
@[simp] theorem races_withBus (x : Bus) : (s.withBus x).races = s.races := rfl
@[simp] theorem pending_withBus (x : Bus) : (s.withBus x).pending = s.pending := rfl

/-! ### After `withStaging` -/

@[simp] theorem timeBase_withStaging (x : Staging) : (s.withStaging x).timeBase = s.timeBase := rfl
@[simp] theorem control_withStaging (x : Staging) : (s.withStaging x).control = s.control := rfl
@[simp] theorem shadow_withStaging (x : Staging) : (s.withStaging x).shadow = s.shadow := rfl
@[simp] theorem bus_withStaging (x : Staging) : (s.withStaging x).bus = s.bus := rfl
@[simp] theorem staging_withStaging (x : Staging) : (s.withStaging x).staging = x := rfl
@[simp] theorem axles_withStaging (x : Staging) : (s.withStaging x).axles = s.axles := rfl
@[simp] theorem intake_withStaging (x : Staging) : (s.withStaging x).intake = s.intake := rfl
@[simp] theorem feedback_withStaging (x : Staging) : (s.withStaging x).feedback = s.feedback := rfl
@[simp] theorem hold_withStaging (x : Staging) : (s.withStaging x).hold = s.hold := rfl
@[simp] theorem sand_withStaging (x : Staging) : (s.withStaging x).sand = s.sand := rfl
@[simp] theorem supervision_withStaging (x : Staging) : (s.withStaging x).supervision = s.supervision := rfl
@[simp] theorem emission_withStaging (x : Staging) : (s.withStaging x).emission = s.emission := rfl
@[simp] theorem notices_withStaging (x : Staging) : (s.withStaging x).notices = s.notices := rfl
@[simp] theorem overlay_withStaging (x : Staging) : (s.withStaging x).overlay = s.overlay := rfl
@[simp] theorem lines_withStaging (x : Staging) : (s.withStaging x).lines = s.lines := rfl
@[simp] theorem races_withStaging (x : Staging) : (s.withStaging x).races = s.races := rfl
@[simp] theorem pending_withStaging (x : Staging) : (s.withStaging x).pending = s.pending := rfl

/-! ### After `withAxles` -/

@[simp] theorem timeBase_withAxles (x : Vector Axle 8) : (s.withAxles x).timeBase = s.timeBase := rfl
@[simp] theorem control_withAxles (x : Vector Axle 8) : (s.withAxles x).control = s.control := rfl
@[simp] theorem shadow_withAxles (x : Vector Axle 8) : (s.withAxles x).shadow = s.shadow := rfl
@[simp] theorem bus_withAxles (x : Vector Axle 8) : (s.withAxles x).bus = s.bus := rfl
@[simp] theorem staging_withAxles (x : Vector Axle 8) : (s.withAxles x).staging = s.staging := rfl
@[simp] theorem axles_withAxles (x : Vector Axle 8) : (s.withAxles x).axles = x := rfl
@[simp] theorem intake_withAxles (x : Vector Axle 8) : (s.withAxles x).intake = s.intake := rfl
@[simp] theorem feedback_withAxles (x : Vector Axle 8) : (s.withAxles x).feedback = s.feedback := rfl
@[simp] theorem hold_withAxles (x : Vector Axle 8) : (s.withAxles x).hold = s.hold := rfl
@[simp] theorem sand_withAxles (x : Vector Axle 8) : (s.withAxles x).sand = s.sand := rfl
@[simp] theorem supervision_withAxles (x : Vector Axle 8) : (s.withAxles x).supervision = s.supervision := rfl
@[simp] theorem emission_withAxles (x : Vector Axle 8) : (s.withAxles x).emission = s.emission := rfl
@[simp] theorem notices_withAxles (x : Vector Axle 8) : (s.withAxles x).notices = s.notices := rfl
@[simp] theorem overlay_withAxles (x : Vector Axle 8) : (s.withAxles x).overlay = s.overlay := rfl
@[simp] theorem lines_withAxles (x : Vector Axle 8) : (s.withAxles x).lines = s.lines := rfl
@[simp] theorem races_withAxles (x : Vector Axle 8) : (s.withAxles x).races = s.races := rfl
@[simp] theorem pending_withAxles (x : Vector Axle 8) : (s.withAxles x).pending = s.pending := rfl

/-! ### After `withIntake` -/

@[simp] theorem timeBase_withIntake (x : Intake) : (s.withIntake x).timeBase = s.timeBase := rfl
@[simp] theorem control_withIntake (x : Intake) : (s.withIntake x).control = s.control := rfl
@[simp] theorem shadow_withIntake (x : Intake) : (s.withIntake x).shadow = s.shadow := rfl
@[simp] theorem bus_withIntake (x : Intake) : (s.withIntake x).bus = s.bus := rfl
@[simp] theorem staging_withIntake (x : Intake) : (s.withIntake x).staging = s.staging := rfl
@[simp] theorem axles_withIntake (x : Intake) : (s.withIntake x).axles = s.axles := rfl
@[simp] theorem intake_withIntake (x : Intake) : (s.withIntake x).intake = x := rfl
@[simp] theorem feedback_withIntake (x : Intake) : (s.withIntake x).feedback = s.feedback := rfl
@[simp] theorem hold_withIntake (x : Intake) : (s.withIntake x).hold = s.hold := rfl
@[simp] theorem sand_withIntake (x : Intake) : (s.withIntake x).sand = s.sand := rfl
@[simp] theorem supervision_withIntake (x : Intake) : (s.withIntake x).supervision = s.supervision := rfl
@[simp] theorem emission_withIntake (x : Intake) : (s.withIntake x).emission = s.emission := rfl
@[simp] theorem notices_withIntake (x : Intake) : (s.withIntake x).notices = s.notices := rfl
@[simp] theorem overlay_withIntake (x : Intake) : (s.withIntake x).overlay = s.overlay := rfl
@[simp] theorem lines_withIntake (x : Intake) : (s.withIntake x).lines = s.lines := rfl
@[simp] theorem races_withIntake (x : Intake) : (s.withIntake x).races = s.races := rfl
@[simp] theorem pending_withIntake (x : Intake) : (s.withIntake x).pending = s.pending := rfl

/-! ### After `withFeedback` -/

@[simp] theorem timeBase_withFeedback (x : Vector Feedback 4) : (s.withFeedback x).timeBase = s.timeBase := rfl
@[simp] theorem control_withFeedback (x : Vector Feedback 4) : (s.withFeedback x).control = s.control := rfl
@[simp] theorem shadow_withFeedback (x : Vector Feedback 4) : (s.withFeedback x).shadow = s.shadow := rfl
@[simp] theorem bus_withFeedback (x : Vector Feedback 4) : (s.withFeedback x).bus = s.bus := rfl
@[simp] theorem staging_withFeedback (x : Vector Feedback 4) : (s.withFeedback x).staging = s.staging := rfl
@[simp] theorem axles_withFeedback (x : Vector Feedback 4) : (s.withFeedback x).axles = s.axles := rfl
@[simp] theorem intake_withFeedback (x : Vector Feedback 4) : (s.withFeedback x).intake = s.intake := rfl
@[simp] theorem feedback_withFeedback (x : Vector Feedback 4) : (s.withFeedback x).feedback = x := rfl
@[simp] theorem hold_withFeedback (x : Vector Feedback 4) : (s.withFeedback x).hold = s.hold := rfl
@[simp] theorem sand_withFeedback (x : Vector Feedback 4) : (s.withFeedback x).sand = s.sand := rfl
@[simp] theorem supervision_withFeedback (x : Vector Feedback 4) : (s.withFeedback x).supervision = s.supervision := rfl
@[simp] theorem emission_withFeedback (x : Vector Feedback 4) : (s.withFeedback x).emission = s.emission := rfl
@[simp] theorem notices_withFeedback (x : Vector Feedback 4) : (s.withFeedback x).notices = s.notices := rfl
@[simp] theorem overlay_withFeedback (x : Vector Feedback 4) : (s.withFeedback x).overlay = s.overlay := rfl
@[simp] theorem lines_withFeedback (x : Vector Feedback 4) : (s.withFeedback x).lines = s.lines := rfl
@[simp] theorem races_withFeedback (x : Vector Feedback 4) : (s.withFeedback x).races = s.races := rfl
@[simp] theorem pending_withFeedback (x : Vector Feedback 4) : (s.withFeedback x).pending = s.pending := rfl

/-! ### After `withHold` -/

@[simp] theorem timeBase_withHold (x : Hold) : (s.withHold x).timeBase = s.timeBase := rfl
@[simp] theorem control_withHold (x : Hold) : (s.withHold x).control = s.control := rfl
@[simp] theorem shadow_withHold (x : Hold) : (s.withHold x).shadow = s.shadow := rfl
@[simp] theorem bus_withHold (x : Hold) : (s.withHold x).bus = s.bus := rfl
@[simp] theorem staging_withHold (x : Hold) : (s.withHold x).staging = s.staging := rfl
@[simp] theorem axles_withHold (x : Hold) : (s.withHold x).axles = s.axles := rfl
@[simp] theorem intake_withHold (x : Hold) : (s.withHold x).intake = s.intake := rfl
@[simp] theorem feedback_withHold (x : Hold) : (s.withHold x).feedback = s.feedback := rfl
@[simp] theorem hold_withHold (x : Hold) : (s.withHold x).hold = x := rfl
@[simp] theorem sand_withHold (x : Hold) : (s.withHold x).sand = s.sand := rfl
@[simp] theorem supervision_withHold (x : Hold) : (s.withHold x).supervision = s.supervision := rfl
@[simp] theorem emission_withHold (x : Hold) : (s.withHold x).emission = s.emission := rfl
@[simp] theorem notices_withHold (x : Hold) : (s.withHold x).notices = s.notices := rfl
@[simp] theorem overlay_withHold (x : Hold) : (s.withHold x).overlay = s.overlay := rfl
@[simp] theorem lines_withHold (x : Hold) : (s.withHold x).lines = s.lines := rfl
@[simp] theorem races_withHold (x : Hold) : (s.withHold x).races = s.races := rfl
@[simp] theorem pending_withHold (x : Hold) : (s.withHold x).pending = s.pending := rfl

/-! ### After `withSand` -/

@[simp] theorem timeBase_withSand (x : Sand) : (s.withSand x).timeBase = s.timeBase := rfl
@[simp] theorem control_withSand (x : Sand) : (s.withSand x).control = s.control := rfl
@[simp] theorem shadow_withSand (x : Sand) : (s.withSand x).shadow = s.shadow := rfl
@[simp] theorem bus_withSand (x : Sand) : (s.withSand x).bus = s.bus := rfl
@[simp] theorem staging_withSand (x : Sand) : (s.withSand x).staging = s.staging := rfl
@[simp] theorem axles_withSand (x : Sand) : (s.withSand x).axles = s.axles := rfl
@[simp] theorem intake_withSand (x : Sand) : (s.withSand x).intake = s.intake := rfl
@[simp] theorem feedback_withSand (x : Sand) : (s.withSand x).feedback = s.feedback := rfl
@[simp] theorem hold_withSand (x : Sand) : (s.withSand x).hold = s.hold := rfl
@[simp] theorem sand_withSand (x : Sand) : (s.withSand x).sand = x := rfl
@[simp] theorem supervision_withSand (x : Sand) : (s.withSand x).supervision = s.supervision := rfl
@[simp] theorem emission_withSand (x : Sand) : (s.withSand x).emission = s.emission := rfl
@[simp] theorem notices_withSand (x : Sand) : (s.withSand x).notices = s.notices := rfl
@[simp] theorem overlay_withSand (x : Sand) : (s.withSand x).overlay = s.overlay := rfl
@[simp] theorem lines_withSand (x : Sand) : (s.withSand x).lines = s.lines := rfl
@[simp] theorem races_withSand (x : Sand) : (s.withSand x).races = s.races := rfl
@[simp] theorem pending_withSand (x : Sand) : (s.withSand x).pending = s.pending := rfl

/-! ### After `withSupervision` -/

@[simp] theorem timeBase_withSupervision (x : Vector Supervision 4) : (s.withSupervision x).timeBase = s.timeBase := rfl
@[simp] theorem control_withSupervision (x : Vector Supervision 4) : (s.withSupervision x).control = s.control := rfl
@[simp] theorem shadow_withSupervision (x : Vector Supervision 4) : (s.withSupervision x).shadow = s.shadow := rfl
@[simp] theorem bus_withSupervision (x : Vector Supervision 4) : (s.withSupervision x).bus = s.bus := rfl
@[simp] theorem staging_withSupervision (x : Vector Supervision 4) : (s.withSupervision x).staging = s.staging := rfl
@[simp] theorem axles_withSupervision (x : Vector Supervision 4) : (s.withSupervision x).axles = s.axles := rfl
@[simp] theorem intake_withSupervision (x : Vector Supervision 4) : (s.withSupervision x).intake = s.intake := rfl
@[simp] theorem feedback_withSupervision (x : Vector Supervision 4) : (s.withSupervision x).feedback = s.feedback := rfl
@[simp] theorem hold_withSupervision (x : Vector Supervision 4) : (s.withSupervision x).hold = s.hold := rfl
@[simp] theorem sand_withSupervision (x : Vector Supervision 4) : (s.withSupervision x).sand = s.sand := rfl
@[simp] theorem supervision_withSupervision (x : Vector Supervision 4) : (s.withSupervision x).supervision = x := rfl
@[simp] theorem emission_withSupervision (x : Vector Supervision 4) : (s.withSupervision x).emission = s.emission := rfl
@[simp] theorem notices_withSupervision (x : Vector Supervision 4) : (s.withSupervision x).notices = s.notices := rfl
@[simp] theorem overlay_withSupervision (x : Vector Supervision 4) : (s.withSupervision x).overlay = s.overlay := rfl
@[simp] theorem lines_withSupervision (x : Vector Supervision 4) : (s.withSupervision x).lines = s.lines := rfl
@[simp] theorem races_withSupervision (x : Vector Supervision 4) : (s.withSupervision x).races = s.races := rfl
@[simp] theorem pending_withSupervision (x : Vector Supervision 4) : (s.withSupervision x).pending = s.pending := rfl

/-! ### After `withEmission` -/

@[simp] theorem timeBase_withEmission (x : Emission) : (s.withEmission x).timeBase = s.timeBase := rfl
@[simp] theorem control_withEmission (x : Emission) : (s.withEmission x).control = s.control := rfl
@[simp] theorem shadow_withEmission (x : Emission) : (s.withEmission x).shadow = s.shadow := rfl
@[simp] theorem bus_withEmission (x : Emission) : (s.withEmission x).bus = s.bus := rfl
@[simp] theorem staging_withEmission (x : Emission) : (s.withEmission x).staging = s.staging := rfl
@[simp] theorem axles_withEmission (x : Emission) : (s.withEmission x).axles = s.axles := rfl
@[simp] theorem intake_withEmission (x : Emission) : (s.withEmission x).intake = s.intake := rfl
@[simp] theorem feedback_withEmission (x : Emission) : (s.withEmission x).feedback = s.feedback := rfl
@[simp] theorem hold_withEmission (x : Emission) : (s.withEmission x).hold = s.hold := rfl
@[simp] theorem sand_withEmission (x : Emission) : (s.withEmission x).sand = s.sand := rfl
@[simp] theorem supervision_withEmission (x : Emission) : (s.withEmission x).supervision = s.supervision := rfl
@[simp] theorem emission_withEmission (x : Emission) : (s.withEmission x).emission = x := rfl
@[simp] theorem notices_withEmission (x : Emission) : (s.withEmission x).notices = s.notices := rfl
@[simp] theorem overlay_withEmission (x : Emission) : (s.withEmission x).overlay = s.overlay := rfl
@[simp] theorem lines_withEmission (x : Emission) : (s.withEmission x).lines = s.lines := rfl
@[simp] theorem races_withEmission (x : Emission) : (s.withEmission x).races = s.races := rfl
@[simp] theorem pending_withEmission (x : Emission) : (s.withEmission x).pending = s.pending := rfl

/-! ### After `withNotices` -/

@[simp] theorem timeBase_withNotices (x : Vector Notice 15) : (s.withNotices x).timeBase = s.timeBase := rfl
@[simp] theorem control_withNotices (x : Vector Notice 15) : (s.withNotices x).control = s.control := rfl
@[simp] theorem shadow_withNotices (x : Vector Notice 15) : (s.withNotices x).shadow = s.shadow := rfl
@[simp] theorem bus_withNotices (x : Vector Notice 15) : (s.withNotices x).bus = s.bus := rfl
@[simp] theorem staging_withNotices (x : Vector Notice 15) : (s.withNotices x).staging = s.staging := rfl
@[simp] theorem axles_withNotices (x : Vector Notice 15) : (s.withNotices x).axles = s.axles := rfl
@[simp] theorem intake_withNotices (x : Vector Notice 15) : (s.withNotices x).intake = s.intake := rfl
@[simp] theorem feedback_withNotices (x : Vector Notice 15) : (s.withNotices x).feedback = s.feedback := rfl
@[simp] theorem hold_withNotices (x : Vector Notice 15) : (s.withNotices x).hold = s.hold := rfl
@[simp] theorem sand_withNotices (x : Vector Notice 15) : (s.withNotices x).sand = s.sand := rfl
@[simp] theorem supervision_withNotices (x : Vector Notice 15) : (s.withNotices x).supervision = s.supervision := rfl
@[simp] theorem emission_withNotices (x : Vector Notice 15) : (s.withNotices x).emission = s.emission := rfl
@[simp] theorem notices_withNotices (x : Vector Notice 15) : (s.withNotices x).notices = x := rfl
@[simp] theorem overlay_withNotices (x : Vector Notice 15) : (s.withNotices x).overlay = s.overlay := rfl
@[simp] theorem lines_withNotices (x : Vector Notice 15) : (s.withNotices x).lines = s.lines := rfl
@[simp] theorem races_withNotices (x : Vector Notice 15) : (s.withNotices x).races = s.races := rfl
@[simp] theorem pending_withNotices (x : Vector Notice 15) : (s.withNotices x).pending = s.pending := rfl

/-! ### After `withOverlay` -/

@[simp] theorem timeBase_withOverlay (x : Overlay) : (s.withOverlay x).timeBase = s.timeBase := rfl
@[simp] theorem control_withOverlay (x : Overlay) : (s.withOverlay x).control = s.control := rfl
@[simp] theorem shadow_withOverlay (x : Overlay) : (s.withOverlay x).shadow = s.shadow := rfl
@[simp] theorem bus_withOverlay (x : Overlay) : (s.withOverlay x).bus = s.bus := rfl
@[simp] theorem staging_withOverlay (x : Overlay) : (s.withOverlay x).staging = s.staging := rfl
@[simp] theorem axles_withOverlay (x : Overlay) : (s.withOverlay x).axles = s.axles := rfl
@[simp] theorem intake_withOverlay (x : Overlay) : (s.withOverlay x).intake = s.intake := rfl
@[simp] theorem feedback_withOverlay (x : Overlay) : (s.withOverlay x).feedback = s.feedback := rfl
@[simp] theorem hold_withOverlay (x : Overlay) : (s.withOverlay x).hold = s.hold := rfl
@[simp] theorem sand_withOverlay (x : Overlay) : (s.withOverlay x).sand = s.sand := rfl
@[simp] theorem supervision_withOverlay (x : Overlay) : (s.withOverlay x).supervision = s.supervision := rfl
@[simp] theorem emission_withOverlay (x : Overlay) : (s.withOverlay x).emission = s.emission := rfl
@[simp] theorem notices_withOverlay (x : Overlay) : (s.withOverlay x).notices = s.notices := rfl
@[simp] theorem overlay_withOverlay (x : Overlay) : (s.withOverlay x).overlay = x := rfl
@[simp] theorem lines_withOverlay (x : Overlay) : (s.withOverlay x).lines = s.lines := rfl
@[simp] theorem races_withOverlay (x : Overlay) : (s.withOverlay x).races = s.races := rfl
@[simp] theorem pending_withOverlay (x : Overlay) : (s.withOverlay x).pending = s.pending := rfl

/-! ### After `withLines` -/

@[simp] theorem timeBase_withLines (x : Lines) : (s.withLines x).timeBase = s.timeBase := rfl
@[simp] theorem control_withLines (x : Lines) : (s.withLines x).control = s.control := rfl
@[simp] theorem shadow_withLines (x : Lines) : (s.withLines x).shadow = s.shadow := rfl
@[simp] theorem bus_withLines (x : Lines) : (s.withLines x).bus = s.bus := rfl
@[simp] theorem staging_withLines (x : Lines) : (s.withLines x).staging = s.staging := rfl
@[simp] theorem axles_withLines (x : Lines) : (s.withLines x).axles = s.axles := rfl
@[simp] theorem intake_withLines (x : Lines) : (s.withLines x).intake = s.intake := rfl
@[simp] theorem feedback_withLines (x : Lines) : (s.withLines x).feedback = s.feedback := rfl
@[simp] theorem hold_withLines (x : Lines) : (s.withLines x).hold = s.hold := rfl
@[simp] theorem sand_withLines (x : Lines) : (s.withLines x).sand = s.sand := rfl
@[simp] theorem supervision_withLines (x : Lines) : (s.withLines x).supervision = s.supervision := rfl
@[simp] theorem emission_withLines (x : Lines) : (s.withLines x).emission = s.emission := rfl
@[simp] theorem notices_withLines (x : Lines) : (s.withLines x).notices = s.notices := rfl
@[simp] theorem overlay_withLines (x : Lines) : (s.withLines x).overlay = s.overlay := rfl
@[simp] theorem lines_withLines (x : Lines) : (s.withLines x).lines = x := rfl
@[simp] theorem races_withLines (x : Lines) : (s.withLines x).races = s.races := rfl
@[simp] theorem pending_withLines (x : Lines) : (s.withLines x).pending = s.pending := rfl

/-! ### After `withRaces` -/

@[simp] theorem timeBase_withRaces (x : Nat) : (s.withRaces x).timeBase = s.timeBase := rfl
@[simp] theorem control_withRaces (x : Nat) : (s.withRaces x).control = s.control := rfl
@[simp] theorem shadow_withRaces (x : Nat) : (s.withRaces x).shadow = s.shadow := rfl
@[simp] theorem bus_withRaces (x : Nat) : (s.withRaces x).bus = s.bus := rfl
@[simp] theorem staging_withRaces (x : Nat) : (s.withRaces x).staging = s.staging := rfl
@[simp] theorem axles_withRaces (x : Nat) : (s.withRaces x).axles = s.axles := rfl
@[simp] theorem intake_withRaces (x : Nat) : (s.withRaces x).intake = s.intake := rfl
@[simp] theorem feedback_withRaces (x : Nat) : (s.withRaces x).feedback = s.feedback := rfl
@[simp] theorem hold_withRaces (x : Nat) : (s.withRaces x).hold = s.hold := rfl
@[simp] theorem sand_withRaces (x : Nat) : (s.withRaces x).sand = s.sand := rfl
@[simp] theorem supervision_withRaces (x : Nat) : (s.withRaces x).supervision = s.supervision := rfl
@[simp] theorem emission_withRaces (x : Nat) : (s.withRaces x).emission = s.emission := rfl
@[simp] theorem notices_withRaces (x : Nat) : (s.withRaces x).notices = s.notices := rfl
@[simp] theorem overlay_withRaces (x : Nat) : (s.withRaces x).overlay = s.overlay := rfl
@[simp] theorem lines_withRaces (x : Nat) : (s.withRaces x).lines = s.lines := rfl
@[simp] theorem races_withRaces (x : Nat) : (s.withRaces x).races = x := rfl
@[simp] theorem pending_withRaces (x : Nat) : (s.withRaces x).pending = s.pending := rfl

/-! ### After `withPending` -/

@[simp] theorem timeBase_withPending (x : List Instr) : (s.withPending x).timeBase = s.timeBase := rfl
@[simp] theorem control_withPending (x : List Instr) : (s.withPending x).control = s.control := rfl
@[simp] theorem shadow_withPending (x : List Instr) : (s.withPending x).shadow = s.shadow := rfl
@[simp] theorem bus_withPending (x : List Instr) : (s.withPending x).bus = s.bus := rfl
@[simp] theorem staging_withPending (x : List Instr) : (s.withPending x).staging = s.staging := rfl
@[simp] theorem axles_withPending (x : List Instr) : (s.withPending x).axles = s.axles := rfl
@[simp] theorem intake_withPending (x : List Instr) : (s.withPending x).intake = s.intake := rfl
@[simp] theorem feedback_withPending (x : List Instr) : (s.withPending x).feedback = s.feedback := rfl
@[simp] theorem hold_withPending (x : List Instr) : (s.withPending x).hold = s.hold := rfl
@[simp] theorem sand_withPending (x : List Instr) : (s.withPending x).sand = s.sand := rfl
@[simp] theorem supervision_withPending (x : List Instr) : (s.withPending x).supervision = s.supervision := rfl
@[simp] theorem emission_withPending (x : List Instr) : (s.withPending x).emission = s.emission := rfl
@[simp] theorem notices_withPending (x : List Instr) : (s.withPending x).notices = s.notices := rfl
@[simp] theorem overlay_withPending (x : List Instr) : (s.withPending x).overlay = s.overlay := rfl
@[simp] theorem lines_withPending (x : List Instr) : (s.withPending x).lines = s.lines := rfl
@[simp] theorem races_withPending (x : List Instr) : (s.withPending x).races = s.races := rfl
@[simp] theorem pending_withPending (x : List Instr) : (s.withPending x).pending = x := rfl

end Sys2Proof.Machine
end

