-- ==== Sys2Proof/Laws/Ops.lean ====
section
/-! SUPPORT. What each shared operation of Machine/Ops.lean does, said once: its result as a state with the blocks it
writes replaced. -/

namespace Sys2Proof.Machine

/-! ### Loops over bogies and axles -/

theorem foldl_upTo4 {α : Type} (f : α → BogieNo → α) (x : α) :
    upTo4.foldl f x = f (f (f (f x 0) 1) 2) 3 := rfl

theorem all_upTo4 (p : BogieNo → Bool) : upTo4.all p = true ↔ ∀ b, p b = true := by
  simp [upTo4, Fin.forall_fin_succ]

theorem any_upTo4 (p : BogieNo → Bool) : upTo4.any p = true ↔ ∃ b, p b = true := by
  simp [upTo4, Fin.exists_fin_succ]

theorem all_upTo8 (p : AxleNo → Bool) : upTo8.all p = true ↔ ∀ n, p n = true := by
  simp [upTo8, Fin.forall_fin_succ]

theorem any_upTo8 (p : AxleNo → Bool) : upTo8.any p = true ↔ ∃ n, p n = true := by
  simp [upTo8, Fin.exists_fin_succ]

theorem all_upTo16 (p : WindowNo → Bool) : upTo16.all p = true ↔ ∀ w, p w = true := by
  simp [upTo16, Fin.forall_fin_succ]

/-! ### Notices -/

theorem raise_eq (k : NoticeKind) (i : Nat) (s : State) :
    raise k i s = { s with notices := noted k i s.timeBase s.notices } := rfl

theorem acknowledge_eq (mask : Half) (s : State) :
    acknowledge mask s = { s with notices := acked mask s.notices } := rfl

theorem clearPersistentFlags_eq (mask : Byte) (s : State) :
    clearPersistentFlags mask s = { s with axles := unpersisted mask s.axles } := rfl

theorem NoticeKind.slot_injective : Function.Injective NoticeKind.slot := by
  intro a b h
  cases a <;> cases b <;> simp_all [NoticeKind.slot]

theorem noted_same (k : NoticeKind) (i : Nat) (now : Word) (t : Vector Notice 15) :
    (noted k i now t)[k.slot] = t[k.slot].raised (BitVec.ofNat 8 i) now := by
  simp [noted]

theorem noted_other (k : NoticeKind) (i : Nat) (now : Word) (t : Vector Notice 15) (j : Fin 15) (h : j ≠ k.slot) :
    (noted k i now t)[j] = t[j] := by
  have : k.slot.val ≠ j.val := fun e => h (Fin.ext e.symm)
  simp [noted, this]

/-! ### Lines -/

theorem lineLevels_withLines (s : State) (x : Lines) : lineLevels (s.withLines x) = lineLevels s := rfl

theorem settle_eq (s : State) : settle s = { s with lines := lineLevels s } := rfl

theorem done_eq (s : State) : done s = .next (settle s) := rfl

theorem byteAt_val {n : Nat} (v : Vector Byte n) (i : Nat) (h : i < n) : byteAt v i = v[i].toNat := by
  simp [byteAt, h]

theorem cutLevel_iff (s : State) (k : Fin 4) : cutLevel s k = true ↔
    (s.control.mode = .run ∧ ∃ n : AxleNo, byteAt s.shadow.axles[n] 3 = k.val ∧ s.axles[n].state = .slip) ∨
      (s.control.mode = .run ∧ s.hold.latch ≠ .clear) ∨ s.control.mode = .fallback := by
  unfold cutLevel
  cases s.control.mode
  · simp
  · have line (n : AxleNo) : s.shadow.axleCutLine n = byteAt s.shadow.axles[n] 3 :=
      (byteAt_val s.shadow.axles[n] 3 (by decide)).symm
    have every (n : AxleNo) : n ∈ upTo8 := by fin_cases n <;> decide
    simp [every, line, or_comm, and_comm]
  · simp

theorem alertLevel_iff (s : State) : alertLevel s = true ↔
    ∃ i : Fin 15, s.notices[i].pending = true ∧ byteAt s.shadow.routes (i.val + 1) = 1 := by
  have route (i : Fin 15) : s.shadow.routed i.succ = true ↔ byteAt s.shadow.routes (i.val + 1) = 1 := by
    rw [byteAt_val _ _ (by omega)]
    simp only [Shadow.routed, beq_iff_eq, ← BitVec.toNat_inj]
    rfl
  simp [alertLevel, route]

/-- The lines are settled exactly when they stand at the levels that the state gives them (R76, R158). -/
theorem linesSettled_iff (s : State) : LinesSettled s ↔ s.lines = lineLevels s := by
  have cuts : (∀ k : Fin 4, s.lines.cut[k] = cutLevel s k) ↔ s.lines.cut = (lineLevels s).cut := by
    constructor
    · intro h
      ext k hk
      simpa [lineLevels] using h ⟨k, hk⟩
    · intro h k
      rw [h]
      simp [lineLevels]
  unfold LinesSettled
  simp only [← cutLevel_iff, ← alertLevel_iff, ← Bool.eq_iff_iff, cuts]
  cases h : s.lines
  simp [lineLevels]

theorem linesSettled_settle (s : State) : LinesSettled (settle s) :=
  (linesSettled_iff _).2 rfl

/-! ### The arbiter -/

theorem lowest_none (r : BogieSet) : BogieSet.lowest r = none ↔ ∀ b : BogieNo, r[b] = false := by
  simp [BogieSet.lowest, upTo4, Fin.forall_fin_succ]

theorem lowest_some (r : BogieSet) (b : BogieNo) :
    BogieSet.lowest r = some b ↔ r[b] = true ∧ ∀ c : BogieNo, c < b → r[c] = false := by
  fin_cases b <;>
    (cases h0 : r[0] <;> cases h1 : r[1] <;> cases h2 : r[2] <;> cases h3 : r[3] <;>
      simp [BogieSet.lowest, upTo4, Fin.forall_fin_succ, h0, h1, h2, h3])

/-- A standing decision is not revised (R127). -/
theorem arbitrate_decided (e : Emission) (k : Choice) (h : e.decision = some k) : e.arbitrate = e := by
  cases e
  simp_all [Emission.arbitrate]

/-- With the D-port taken the arbiter decides nothing (R127). -/
theorem arbitrate_taken (e : Emission) (f : Flight) (h : e.inFlight = some f) : e.arbitrate = e := by
  cases e
  simp_all [Emission.arbitrate]

/-- With the D-port free and no decision standing the arbiter decides by the table (R127). -/
theorem arbitrate_free (e : Emission) (h : e.inFlight = none) (hd : e.decision = none) :
    e.arbitrate = { e with decision := e.choice } := by
  simp [Emission.arbitrate, h, hd]

/-- The arbiter chooses nothing exactly when nothing waits, and otherwise something that waits (R127). -/
theorem choice_sound (e : Emission) :
    (e.choice = none ↔ e.queue = [] ∧ ∀ b : BogieNo, e.rewriteSet[b] = false) ∧
      (e.choice = some .head → e.queue ≠ []) ∧
      (∀ b, e.choice = some (.rewrite b) → e.rewriteSet[b] = true) := by
  unfold Emission.choice
  rcases hl : BogieSet.lowest e.rewriteSet with _ | b
  · rw [lowest_none] at hl
    cases hq : e.queue <;> simp [hl]
  · have hb := ((lowest_some _ _).mp hl).1
    refine ⟨⟨fun h => ?_, fun h => ?_⟩, fun h => ?_, fun c h => ?_⟩
    · simp only at h
      split at h <;> simp at h
    · exact absurd hb (by rw [h.2 b]; decide)
    · intro hq
      simp [hq] at h
    · simp only at h
      split at h
      · simp only [Option.some.injEq, Choice.rewrite.injEq] at h
        exact h ▸ hb
      · simp at h

theorem eq_none_iff (r : BogieSet) : r = BogieSet.none ↔ ∀ b : BogieNo, r[b] = false := by
  constructor
  · rintro rfl b
    simp [BogieSet.none]
  · intro h
    ext i hi
    simpa [BogieSet.none] using h ⟨i, hi⟩

/-- The arbiter leaves a sound decision where what was decided still waits (R127). -/
theorem arbitrate_sound (e : Emission) (hf : e.inFlight ≠ none → e.decision = none)
    (hq : e.decision = some .head → e.queue ≠ [])
    (hr : ∀ b, e.decision = some (.rewrite b) → e.rewriteSet[b] = true) : ArbiterSound e.arbitrate := by
  by_cases hfree : e.inFlight = none
  · cases hd : e.decision with
    | none =>
      rw [arbitrate_free e hfree hd]
      obtain ⟨c1, c2, c3⟩ := choice_sound e
      exact ⟨fun k => absurd hfree k, fun _ => c1.trans (by rw [eq_none_iff]), c2, c3⟩
    | some k =>
      rw [arbitrate_decided e k hd]
      refine ⟨hf, fun _ => ⟨fun h => absurd (hd.symm.trans h) (by simp), fun h => ?_⟩, hq, hr⟩
      cases k with
      | head => exact absurd h.1 (hq hd)
      | rewrite b => exact absurd (hr b hd) (by rw [(eq_none_iff _).1 h.2 b]; decide)
  · obtain ⟨f, h⟩ := Option.ne_none_iff_exists'.1 hfree
    have hd := hf hfree
    rw [arbitrate_taken e f h]
    exact ⟨hf, fun k => absurd k hfree, hq, hr⟩

theorem requested_sound (b : BogieNo) (e : Emission) (h : ArbiterSound e) : ArbiterSound (requested b e) := by
  refine arbitrate_sound _ h.1 h.2.2.1 fun c hc => ?_
  by_cases k : b = c
  · subst k
    simp
  · have : b.val ≠ c.val := fun e => k (Fin.ext e)
    simpa [this] using h.2.2.2 c hc

theorem joined_sound (x : Entry) (e : Emission) (h : ArbiterSound e) : ArbiterSound (joined x e) :=
  arbitrate_sound _ h.1 (fun _ => by simp) h.2.2.2

/-- At an end the arbiter decides anew. -/
theorem ended_sound (q : List Entry) (e : Emission) : ArbiterSound (ended q e) :=
  arbitrate_sound _ (fun _ => rfl) (fun h => by cases h) (fun _ h => by cases h)

/-! ### Rewrite requests -/

theorem requestRewrite_active (b : BogieNo) (s : State) (h : s.active = true) :
    requestRewrite b s =
      { s with emission := requested b s.emission } := by
  simp [requestRewrite, h, requested, State.withEmission]

theorem requestRewrite_setup (b : BogieNo) (s : State) (h : s.active = false) : requestRewrite b s = s := by
  simp [requestRewrite, h]

/-- The second state is the first but for the rewrite set and what an idle arbiter decides, with no bogie taken out of
the set, the set untouched in SETUP, and a sound decision left sound. -/
def RewriteChange (s t : State) : Prop :=
  ∃ r f, t = { s with emission := { s.emission with rewriteSet := r, decision := f } } ∧
    (∀ b : BogieNo, s.emission.rewriteSet[b] = true → r[b] = true) ∧
    (s.active = false → r = s.emission.rewriteSet) ∧ (ArbiterSound s.emission → ArbiterSound t.emission)

theorem RewriteChange.refl (s : State) : RewriteChange s s :=
  ⟨s.emission.rewriteSet, s.emission.decision, rfl, fun _ h => h, fun _ => rfl, fun h => h⟩

theorem RewriteChange.trans {s t u : State} (h : RewriteChange s t) (k : RewriteChange t u) : RewriteChange s u := by
  obtain ⟨r, f, rfl, h1, h2, h3⟩ := h
  obtain ⟨r', f', rfl, k1, k2, k3⟩ := k
  exact ⟨r', f', rfl, fun b hb => k1 b (h1 b hb), fun ha => (k2 ha).trans (h2 ha), fun hs => k3 (h3 hs)⟩

theorem requestRewrite_change (b : BogieNo) (s : State) : RewriteChange s (requestRewrite b s) := by
  by_cases h : s.active = true
  · rw [requestRewrite_active b s h]
    refine ⟨_, _, rfl, ?_, fun k => by simp [h] at k, requested_sound b s.emission⟩
    intro c hc
    by_cases e : b = c
    · subst e; simp
    · have : b.val ≠ c.val := fun h => e (Fin.ext h)
      simpa [this] using hc
  · rw [requestRewrite_setup b s (by simpa using h)]
    exact RewriteChange.refl s

theorem requestRewrite_member (b : BogieNo) (s : State) (h : s.active = true) :
    (requestRewrite b s).emission.rewriteSet[b] = true := by
  simp [requestRewrite_active b s h, requested, Emission.arbitrate]

theorem requestIf_change (b : BogieNo) (s : State) :
    RewriteChange s (if s.shadow.counts b then requestRewrite b s else s) := by
  split
  · exact requestRewrite_change b s
  · exact RewriteChange.refl s

theorem requestAllRewrites_change (s : State) : RewriteChange s (requestAllRewrites s) := by
  unfold requestAllRewrites
  rw [foldl_upTo4]
  exact (((requestIf_change 0 s).trans (requestIf_change 1 _)).trans (requestIf_change 2 _)).trans (requestIf_change 3 _)

theorem RewriteChange.active {s t : State} (h : RewriteChange s t) : t.active = s.active := by
  obtain ⟨r, f, rfl, -, -⟩ := h; rfl

theorem RewriteChange.shadow {s t : State} (h : RewriteChange s t) : t.shadow = s.shadow := by
  obtain ⟨r, f, rfl, -, -⟩ := h; rfl

theorem RewriteChange.keeps {s t : State} (h : RewriteChange s t) (b : BogieNo)
    (hb : s.emission.rewriteSet[b] = true) : t.emission.rewriteSet[b] = true := by
  obtain ⟨r, f, rfl, h1, -⟩ := h
  exact h1 b hb

theorem RewriteChange.arbiter {s t : State} (h : RewriteChange s t) (hs : ArbiterSound s.emission) :
    ArbiterSound t.emission := by
  obtain ⟨r, f, -, -, -, h3⟩ := h
  exact h3 hs

theorem requestIf_member (b : BogieNo) (s : State) (ha : s.active = true) (hc : s.shadow.counts b = true) :
    (if s.shadow.counts b then requestRewrite b s else s).emission.rewriteSet[b] = true := by
  rw [if_pos hc]
  exact requestRewrite_member b s ha

/-- After a request for every bogie, every bogie within the count is in the set. -/
theorem requestAllRewrites_member (s : State) (ha : s.active = true) (b : BogieNo) (hc : s.shadow.counts b = true) :
    (requestAllRewrites s).emission.rewriteSet[b] = true := by
  unfold requestAllRewrites
  rw [foldl_upTo4]
  have c0 := requestIf_change 0 s
  have c1 := c0.trans (requestIf_change 1 _)
  have c2 := c1.trans (requestIf_change 2 _)
  match b, hc with
  | 0, hc =>
    exact (requestIf_change 3 _).keeps 0 ((requestIf_change 2 _).keeps 0 ((requestIf_change 1 _).keeps 0
      (requestIf_member 0 s ha hc)))
  | 1, hc =>
    exact (requestIf_change 3 _).keeps 1 ((requestIf_change 2 _).keeps 1
      (requestIf_member 1 _ (c0.active.trans ha) (by rw [c0.shadow]; exact hc)))
  | 2, hc =>
    exact (requestIf_change 3 _).keeps 2 (requestIf_member 2 _ (c1.active.trans ha) (by rw [c1.shadow]; exact hc))
  | 3, hc => exact requestIf_member 3 _ (c2.active.trans ha) (by rw [c2.shadow]; exact hc)

theorem requestIf_set (e b : BogieNo) (s : State) (ha : s.active = true) :
    (if s.shadow.counts e then requestRewrite e s else s).emission.rewriteSet[b] = true ↔
      s.emission.rewriteSet[b] = true ∨ (e = b ∧ s.shadow.counts e = true) := by
  split
  · rename_i h
    rw [requestRewrite_active e s ha]
    by_cases k : e = b
    · subst k
      simp [requested, Emission.arbitrate, h]
    · have : e.val ≠ b.val := fun h => k (Fin.ext h)
      simp [requested, Emission.arbitrate, k, this]
  · rename_i h
    simp [h]

/-- A request for every bogie adds the bogies within the count, and no other (R126). -/
theorem requestAllRewrites_set (s : State) (ha : s.active = true) (b : BogieNo) :
    (requestAllRewrites s).emission.rewriteSet[b] = true ↔
      s.emission.rewriteSet[b] = true ∨ s.shadow.counts b = true := by
  unfold requestAllRewrites
  rw [foldl_upTo4]
  have c0 := requestIf_change 0 s
  have c1 := c0.trans (requestIf_change 1 _)
  have c2 := c1.trans (requestIf_change 2 _)
  rw [requestIf_set 3 b _ (c2.active.trans ha), requestIf_set 2 b _ (c1.active.trans ha),
    requestIf_set 1 b _ (c0.active.trans ha), requestIf_set 0 b s ha, c2.shadow, c1.shadow, c0.shadow]
  match b with
  | 0 => simp
  | 1 => simp
  | 2 => simp
  | 3 => simp

/-! ### Joining the queue and answering -/

theorem enqueue_eq (x : Entry) (s : State) : enqueue x s = { s with emission := joined x s.emission } := rfl

theorem answer_eq (tag : Tag) (a : Answer) (data : Option (List Byte)) (s : State) :
    answer tag a data s = { s with bus := answered tag a data } := rfl

theorem holdBus_eq (x : Access) (s : State) : holdBus x s = { s with bus := heldBy x } := rfl

theorem reportWrite_eq (tag : Tag) (s : State) :
    reportWrite tag s = { s with overlay := released tag s.overlay } := rfl

theorem full_iff (s : State) : s.emission.full = true ↔ ¬ HasRoom s := by
  simp [Emission.full, HasRoom]

theorem full_of_room {s : State} (h : HasRoom s) : s.emission.full = false := by
  simpa [HasRoom, Emission.full] using h

end Sys2Proof.Machine
end

