-- ==== Sys2Proof/Laws/Sand.lean ====
section
/-! SUPPORT. What the sanders' transitions can change, said once. -/

namespace Sys2Proof.Machine

/-- The second state is the first but for the sanders' records, rewrite requests and what an idle arbiter decides, which
is left sound if it was. -/
def SanderChange (s t : State) : Prop :=
  ∃ v r f, t =
      { s with
        sand := { s.sand with sanders := v }
        emission := { s.emission with rewriteSet := r, decision := f } } ∧
    (∀ b : BogieNo, s.emission.rewriteSet[b] = true → r[b] = true) ∧
    (s.active = false → r = s.emission.rewriteSet) ∧ (ArbiterSound s.emission → ArbiterSound t.emission)

theorem SanderChange.refl (s : State) : SanderChange s s :=
  ⟨s.sand.sanders, s.emission.rewriteSet, s.emission.decision, rfl, fun _ h => h, fun _ => rfl, fun h => h⟩

theorem SanderChange.trans {s t u : State} (h : SanderChange s t) (k : SanderChange t u) : SanderChange s u := by
  obtain ⟨v, r, f, rfl, h1, h2, h3⟩ := h
  obtain ⟨v', r', f', rfl, k1, k2, k3⟩ := k
  exact ⟨v', r', f', rfl, fun b hb => k1 b (h1 b hb), fun ha => (k2 ha).trans (h2 ha), fun hs => k3 (h3 hs)⟩

theorem SanderChange.ofRewrite {s t : State} (h : RewriteChange s t) : SanderChange s t := by
  obtain ⟨r, f, rfl, h1, h2⟩ := h
  exact ⟨s.sand.sanders, r, f, rfl, h1, h2⟩

theorem SanderChange.keeps {s t : State} (h : SanderChange s t) (b : BogieNo)
    (hb : s.emission.rewriteSet[b] = true) : t.emission.rewriteSet[b] = true := by
  obtain ⟨v, r, f, rfl, h1, -⟩ := h
  exact h1 b hb

theorem SanderChange.arbiter {s t : State} (h : SanderChange s t) (hs : ArbiterSound s.emission) :
    ArbiterSound t.emission := by
  obtain ⟨v, r, f, -, -, -, h3⟩ := h
  exact h3 hs

theorem SanderChange.active {s t : State} (h : SanderChange s t) : t.active = s.active := by
  obtain ⟨v, r, f, rfl, -, -⟩ := h; rfl

theorem SanderChange.shadow {s t : State} (h : SanderChange s t) : t.shadow = s.shadow := by
  obtain ⟨v, r, f, rfl, -, -⟩ := h; rfl

/-- The standing causes do not depend on what the sanders change. -/
theorem SanderChange.causes {s t : State} (h : SanderChange s t) (standing : Vector Request 4) (b : BogieNo) :
    causeStands t standing b = causeStands s standing b := by
  obtain ⟨v, r, f, rfl, -, -⟩ := h; rfl

theorem SanderChange.hold {s t : State} (h : SanderChange s t) : t.hold = s.hold := by
  obtain ⟨v, r, f, rfl, -, -⟩ := h; rfl

theorem SanderChange.sameBut {s t : State} (h : SanderChange s t) : SameButSanders s t := by
  obtain ⟨v, r, f, rfl, -, -⟩ := h
  simp [SameButSanders]

theorem SanderChange.sameButSettled {s t : State} (h : SanderChange s t) : SameButSanders s (settle t) := by
  obtain ⟨v, r, f, rfl, -, -⟩ := h
  simp [SameButSanders, settle]

theorem setSander_eq (b : BogieNo) (x : Sander) (s : State) :
    setSander b x s = { s with sand := { s.sand with sanders := s.sand.sanders.set b x } } := rfl

theorem setSander_change (b : BogieNo) (x : Sander) (s : State) : SanderChange s (setSander b x s) :=
  ⟨_, s.emission.rewriteSet, s.emission.decision, rfl, fun _ h => h, fun _ => rfl, fun h => h⟩

theorem sanderEnterOn_change (issuing : Option BogieNo) (b : BogieNo) (s : State) :
    SanderChange s (sanderEnterOn issuing b s) := by
  unfold sanderEnterOn
  simp only
  split
  · exact setSander_change _ _ _
  · exact (setSander_change _ _ _).trans (SanderChange.ofRewrite (requestRewrite_change _ _))

theorem sanderEvent_change (standing : Vector Request 4) (issuing : Option BogieNo) (b : BogieNo) (s : State) :
    SanderChange s (sanderEvent standing issuing b s) := by
  unfold sanderEvent sanderLoseCause sanderRegainCause sanderEnterPause sanderEnterOff
  simp only
  repeat' split
  all_goals
    first
    | exact SanderChange.refl _
    | exact sanderEnterOn_change _ _ _

theorem sandersEvent_change (standing : Vector Request 4) (issuing : Option BogieNo) (s : State) :
    SanderChange s (sandersEvent standing issuing s) := by
  unfold sandersEvent
  rw [foldl_upTo4]
  exact (((sanderEvent_change _ _ _ _).trans (sanderEvent_change _ _ _ _)).trans (sanderEvent_change _ _ _ _)).trans
    (sanderEvent_change _ _ _ _)

theorem sandersReact_change (s : State) : SanderChange s (sandersReact s) :=
  sandersEvent_change _ _ _

/-! ### One sander's transition moves no other sander -/

theorem set_other {α : Type} {n : Nat} (v : Vector α n) (i j : Fin n) (x : α) (h : i ≠ j) : (v.set i x)[j] = v[j] := by
  have : i.val ≠ j.val := fun e => h (Fin.ext e)
  simp [this]

theorem set_same {α : Type} {n : Nat} (v : Vector α n) (i : Fin n) (x : α) : (v.set i x)[i] = x := by
  simp

theorem setSander_other (b e : BogieNo) (x : Sander) (s : State) (h : b ≠ e) :
    (setSander b x s).sand.sanders[e] = s.sand.sanders[e] :=
  set_other _ _ _ _ h

theorem setSander_same (b : BogieNo) (x : Sander) (s : State) : (setSander b x s).sand.sanders[b] = x :=
  set_same _ _ _

theorem RewriteChange.sand {s t : State} (h : RewriteChange s t) : t.sand = s.sand := by
  obtain ⟨r, f, rfl, -, -⟩ := h; rfl

theorem requestRewrite_sand (b : BogieNo) (s : State) : (requestRewrite b s).sand = s.sand :=
  (requestRewrite_change b s).sand

/-- The record a sander takes when it enters ON (R112, R115). -/
def Sander.enterOn (x : Sander) (now : Word) : Sander :=
  { x with state := .on, runTimer := some now, runOverdue := false, pauseTimer := none }

/-- The record a sander takes at an event outside SETUP, and whether it enters ON (R112 to R115). -/
def Sander.react (x : Sander) (stands counted : Bool) (latch : Latch) (dwell : Nat) (now : Word) : Sander × Bool :=
  match x.state with
  | .off => if stands then (x.enterOn now, true) else (x, false)
  | .on =>
    if x.runOverdue = true ∧ latch = .clear then
      ({ x with
          state := .pause
          runTimer := none
          runOverdue := false
          dwellTimer := none
          pauseTimer := some now }, false)
    else if stands then (x, false)
    else if dwell = 0 then
      ({ x with
          state := .off
          runTimer := none
          runOverdue := false
          dwellTimer := none
          pauseTimer := none }, false)
    else ({ x with state := .dwell, dwellTimer := some now }, false)
  | .dwell =>
    if x.runOverdue = true ∧ latch = .clear then
      ({ x with
          state := .pause
          runTimer := none
          runOverdue := false
          dwellTimer := none
          pauseTimer := some now }, false)
    else if stands then ({ x with state := .on, dwellTimer := none }, false)
    else (x, false)
  | .pause => if counted = true ∧ latch ≠ .clear then (x.enterOn now, true) else (x, false)
  | .empty => (x, false)

/-- What a sander's reaction is, said on its record alone. -/
def sanderReaction (standing : Vector Request 4) (b : BogieNo) (s : State) : Sander × Bool :=
  s.sand.sanders[b].react (causeStands s standing b) (s.shadow.counts b) s.hold.latch s.shadow.sandDwell s.timeBase

theorem eq_setSander_self (b : BogieNo) (s : State) : s = setSander b s.sand.sanders[b.val] s := by
  simp [setSander, State.withSand]

theorem setSander_self (b : BogieNo) (s : State) : setSander b s.sand.sanders[b.val] s = s := by
  simp [setSander, State.withSand]

/-- A sander's event is its reaction, with a rewrite request if it enters ON outside its own bogie's issue. -/
theorem sanderEvent_eq (standing : Vector Request 4) (issuing : Option BogieNo) (b : BogieNo) (s : State)
    (h : s.active = true) :
    sanderEvent standing issuing b s =
      (if (sanderReaction standing b s).2 = true ∧ issuing ≠ some b then
        requestRewrite b (setSander b (sanderReaction standing b s).1 s)
      else setSander b (sanderReaction standing b s).1 s) := by
  unfold sanderEvent sanderReaction Sander.react sanderLoseCause sanderRegainCause sanderEnterPause sanderEnterOff
    sanderEnterOn Sander.enterOn
  cases hx : s.sand.sanders[b].state <;> simp only [h, if_true] <;> split_ifs <;>
    (simp_all [setSander_self]; try exact eq_setSander_self _ _)

theorem sanderEvent_setup (standing : Vector Request 4) (issuing : Option BogieNo) (b : BogieNo) (s : State)
    (h : s.active = false) : sanderEvent standing issuing b s = s := by
  simp [sanderEvent, h]

theorem sanderEvent_record (standing : Vector Request 4) (issuing : Option BogieNo) (b : BogieNo) (s : State)
    (h : s.active = true) :
    (sanderEvent standing issuing b s).sand.sanders[b] = (sanderReaction standing b s).1 := by
  rw [sanderEvent_eq standing issuing b s h]
  split
  · simp only [requestRewrite_sand]
    exact setSander_same _ _ _
  · exact setSander_same _ _ _

theorem sanderEvent_other (standing : Vector Request 4) (issuing : Option BogieNo) (b e : BogieNo) (s : State)
    (hne : b ≠ e) : (sanderEvent standing issuing b s).sand.sanders[e] = s.sand.sanders[e] := by
  by_cases h : s.active = true
  · rw [sanderEvent_eq standing issuing b s h]
    split
    · simp only [requestRewrite_sand]
      exact setSander_other _ _ _ _ hne
    · exact setSander_other _ _ _ _ hne
  · rw [sanderEvent_setup _ _ _ _ (by simpa using h)]

/-! ### All sanders at one event (R110) -/

theorem sanderReaction_congr {s t : State} (h : SanderChange s t) (standing : Vector Request 4) (b : BogieNo)
    (hb : t.sand.sanders[b] = s.sand.sanders[b]) : sanderReaction standing b t = sanderReaction standing b s := by
  have hc := h.causes standing b
  obtain ⟨v, r, f, rfl, -, -⟩ := h
  unfold sanderReaction
  rw [hb, hc]

/-- Bogie b's place in the rewrite set after a sander's event. -/
theorem sanderEvent_request (standing : Vector Request 4) (issuing : Option BogieNo) (e b : BogieNo) (s : State)
    (h : s.active = true) :
    (sanderEvent standing issuing e s).emission.rewriteSet[b] =
      (s.emission.rewriteSet[b] || (decide (e = b) && (sanderReaction standing b s).2 && decide (issuing ≠ some b))) := by
  rw [sanderEvent_eq standing issuing e s h]
  by_cases k : e = b
  · subst k
    split
    · rename_i hh
      rw [requestRewrite_active _ _ (by exact h)]
      simp [requested, Emission.arbitrate, hh]
    · rename_i hh
      show s.emission.rewriteSet[e] = _
      cases hr : (sanderReaction standing e s).2
      · simp
      · have : ¬ issuing ≠ some e := fun i => hh ⟨hr, i⟩
        simp [this]
  · have : e.val ≠ b.val := fun h => k (Fin.ext h)
    split
    · rw [requestRewrite_active _ _ (by exact h)]
      simp [requested, Emission.arbitrate, setSander, k, this]
    · simp [setSander, k]

/-- What an event leaves of bogie b: the sander's record, and its place in the rewrite set (R110, R119). -/
theorem sandersEvent_bogie (standing : Vector Request 4) (issuing : Option BogieNo) (b : BogieNo) (s : State)
    (h : s.active = true) :
    (sandersEvent standing issuing s).sand.sanders[b] = (sanderReaction standing b s).1 ∧
      (sandersEvent standing issuing s).emission.rewriteSet[b] =
        (s.emission.rewriteSet[b] || ((sanderReaction standing b s).2 && decide (issuing ≠ some b))) := by
  unfold sandersEvent
  rw [foldl_upTo4]
  have c0 := sanderEvent_change standing issuing 0 s
  have c1 := c0.trans (sanderEvent_change standing issuing 1 _)
  have c2 := c1.trans (sanderEvent_change standing issuing 2 _)
  have a0 := c0.active.trans h
  have a1 := c1.active.trans h
  have a2 := c2.active.trans h
  have other (e : BogieNo) (t : State) (n : e ≠ b) :=
    sanderEvent_other standing issuing e b t n
  have skip (e : BogieNo) (t : State) (n : e ≠ b) (ht : t.active = true) :
      (sanderEvent standing issuing e t).emission.rewriteSet[b] = t.emission.rewriteSet[b] := by
    rw [sanderEvent_request standing issuing e b t ht]
    simp [n]
  have self (t : State) (ht : t.active = true) (hc : SanderChange s t) (hb : t.sand.sanders[b] = s.sand.sanders[b]) :
      (sanderEvent standing issuing b t).sand.sanders[b] = (sanderReaction standing b s).1 ∧
        (sanderEvent standing issuing b t).emission.rewriteSet[b] =
          (t.emission.rewriteSet[b] || ((sanderReaction standing b s).2 && decide (issuing ≠ some b))) := by
    rw [sanderEvent_record standing issuing b t ht, sanderEvent_request standing issuing b b t ht,
      sanderReaction_congr hc standing b hb]
    simp
  match b, other, skip, self with
  | 0, other, skip, self =>
    rw [other 3 _ (by decide), other 2 _ (by decide), other 1 _ (by decide),
      skip 3 _ (by decide) a2, skip 2 _ (by decide) a1, skip 1 _ (by decide) a0]
    exact self s h (.refl s) rfl
  | 1, other, skip, self =>
    rw [other 3 _ (by decide), other 2 _ (by decide), skip 3 _ (by decide) a2, skip 2 _ (by decide) a1,
      ← skip 0 s (by decide) h]
    exact self _ a0 c0 (other 0 s (by decide))
  | 2, other, skip, self =>
    rw [other 3 _ (by decide), skip 3 _ (by decide) a2, ← skip 0 s (by decide) h, ← skip 1 _ (by decide) a0]
    exact self _ a1 c1 ((other 1 _ (by decide)).trans (other 0 s (by decide)))
  | 3, other, skip, self =>
    rw [← skip 0 s (by decide) h, ← skip 1 _ (by decide) a0, ← skip 2 _ (by decide) a1]
    exact self _ a2 c2 ((other 2 _ (by decide)).trans ((other 1 _ (by decide)).trans (other 0 s (by decide))))

/-- A sander that has reacted while the latch is set does not enter ON at the next event of its own accord: it is in ON
or EMPTY, or its bogie does not count. -/
theorem react_after_latch (x : Sander) (stands counted : Bool) (latch latch' : Latch) (dwell dwell' : Nat)
    (now now' : Word) (stands' : Bool) (hl : latch ≠ .clear) (hs : counted = true → stands = true)
    (hs' : counted = false → stands' = false) :
    ((x.react stands counted latch dwell now).1.react stands' counted latch' dwell' now').2 = false := by
  unfold Sander.react Sander.enterOn
  cases counted
  · have h' := hs' rfl
    subst h'
    cases hx : x.state <;> simp [hl] <;> repeat' split
    all_goals simp_all
  · have h := hs rfl
    subst h
    cases hx : x.state <;> simp [hl, hx] <;> repeat' split
    all_goals simp_all

/-! ### What an event of the sanders depends on -/

/-- The standing causes depend on the parameters, Vref, the mode, the latch, the window and which axles are in SLIP
alone (R109). -/
theorem causeStands_congr {s t : State} (hd : t.shadow = s.shadow) (hi : t.intake = s.intake)
    (hm : t.control.mode = s.control.mode) (hl : t.hold.latch = s.hold.latch)
    (hw : t.sand.windowOpen = s.sand.windowOpen)
    (hx : ∀ n : AxleNo, t.axles[n].state = .slip ↔ s.axles[n].state = .slip) (standing : Vector Request 4)
    (b : BogieNo) : causeStands t standing b = causeStands s standing b := by
  have inhibited : sandInhibited t = sandInhibited s := by
    unfold sandInhibited State.vref
    rw [hd, hi, hm]
  have slip : slipCause t standing b = slipCause s standing b := by
    unfold slipCause
    simp only [hx, hd]
  unfold causeStands
  rw [inhibited, slip, hd, hm, hl, hw]

/-- Two states in which an event finds the same: the mode, the parameters, the time, Vref, the latch, which axles are in
SLIP, the window and the sanders' records. -/
def SandersSee (s t : State) : Prop :=
  t.control.mode = s.control.mode ∧ t.shadow = s.shadow ∧ t.timeBase = s.timeBase ∧ t.intake = s.intake ∧
    t.hold.latch = s.hold.latch ∧ (∀ n : AxleNo, t.axles[n].state = .slip ↔ s.axles[n].state = .slip) ∧
    t.sand.windowOpen = s.sand.windowOpen ∧ t.sand.sanders = s.sand.sanders

theorem sandersEvent_setup (standing : Vector Request 4) (issuing : Option BogieNo) (s : State) (h : s.active = false) :
    sandersEvent standing issuing s = s := by
  unfold sandersEvent
  rw [foldl_upTo4]
  simp only [sanderEvent_setup _ _ _ _ h]

theorem SandersSee.active {s t : State} (h : SandersSee s t) : t.active = s.active := by
  unfold State.active
  rw [h.1]

theorem SandersSee.reaction {s t : State} (h : SandersSee s t) (standing : Vector Request 4) (b : BogieNo) :
    sanderReaction standing b t = sanderReaction standing b s := by
  obtain ⟨hm, hd, hn, hi, hl, hx, hw, hs⟩ := h
  unfold sanderReaction
  rw [causeStands_congr hd hi hm hl hw hx standing b, hd, hn, hl, hs]

/-- States in which an event finds the same take the same sanders' records from it. -/
theorem SandersSee.records {s t : State} (h : SandersSee s t) (standing : Vector Request 4) (issuing : Option BogieNo) :
    (sandersEvent standing issuing t).sand.sanders = (sandersEvent standing issuing s).sand.sanders := by
  by_cases ha : s.active = true
  · have same (b : BogieNo) :
        (sandersEvent standing issuing t).sand.sanders[b] = (sandersEvent standing issuing s).sand.sanders[b] := by
      rw [(sandersEvent_bogie standing issuing b t (h.active.trans ha)).1,
        (sandersEvent_bogie standing issuing b s ha).1, h.reaction standing b]
    exact Vector.ext fun i hi => same ⟨i, hi⟩
  · have ha' : s.active = false := by simpa using ha
    rw [sandersEvent_setup _ _ s ha', sandersEvent_setup _ _ t (h.active.trans ha')]
    exact h.2.2.2.2.2.2.2

/-- States of one rewrite set in which an event finds the same take the same rewrite set from it. -/
theorem SandersSee.requests {s t : State} (h : SandersSee s t) (standing : Vector Request 4) (issuing : Option BogieNo)
    (hr : t.emission.rewriteSet = s.emission.rewriteSet) :
    (sandersEvent standing issuing t).emission.rewriteSet = (sandersEvent standing issuing s).emission.rewriteSet := by
  by_cases ha : s.active = true
  · have same (b : BogieNo) :
        (sandersEvent standing issuing t).emission.rewriteSet[b] =
          (sandersEvent standing issuing s).emission.rewriteSet[b] := by
      rw [(sandersEvent_bogie standing issuing b t (h.active.trans ha)).2,
        (sandersEvent_bogie standing issuing b s ha).2, h.reaction standing b, hr]
    exact Vector.ext fun i hi => same ⟨i, hi⟩
  · have ha' : s.active = false := by simpa using ha
    rw [sandersEvent_setup _ _ s ha', sandersEvent_setup _ _ t (h.active.trans ha')]
    exact hr

/-- An event writes the sanders' records alone of the sander unit. -/
theorem sandersEvent_sand (standing : Vector Request 4) (issuing : Option BogieNo) (s : State) :
    (sandersEvent standing issuing s).sand =
      { s.sand with sanders := (sandersEvent standing issuing s).sand.sanders } := by
  obtain ⟨_, _, _, h, -⟩ := sandersEvent_change standing issuing s
  rw [h]

/-- Only a sander of a bogie within the bogie count enters ON at an event (R109, R115). -/
theorem sanderReaction_counts {standing : Vector Request 4} {b : BogieNo} {s : State}
    (h : (sanderReaction standing b s).2 = true) : s.shadow.counts b = true := by
  by_contra k
  have hc : causeStands s standing b = false := by simp [causeStands, k]
  revert h
  unfold sanderReaction Sander.react
  rw [hc]
  cases s.sand.sanders[b].state <;> simp [k] <;> repeat' split
  all_goals simp

end Sys2Proof.Machine
end

