-- ==== Sys2Proof/Laws/Middle.lean ====
section
/-! SUPPORT. What the blocks in the middle of the part can change at an event: never the U-port, the staging store, the
shadow, the mode, the queue or what is in flight. One lemma for each operation. -/

namespace Sys2Proof.Machine

/-- The second state is the first but for the blocks in the middle, the notices and rewrite requests; no bogie leaves the
rewrite set, which stays as it is in SETUP, and what an idle arbiter decides is left sound if it was. -/
def MiddleChange (s t : State) : Prop :=
  ∃ ax it fb h sd su nt r f, t =
      { s with
        axles := ax
        intake := it
        feedback := fb
        hold := h
        sand := sd
        supervision := su
        notices := nt
        emission := { s.emission with rewriteSet := r, decision := f } } ∧
    (∀ b : BogieNo, s.emission.rewriteSet[b] = true → r[b] = true) ∧
    (s.active = false → r = s.emission.rewriteSet) ∧ (ArbiterSound s.emission → ArbiterSound t.emission)

/-- A state that differs in the middle blocks alone. -/
theorem MiddleChange.of {s t : State}
    (h : t =
      { s with
        axles := t.axles
        intake := t.intake
        feedback := t.feedback
        hold := t.hold
        sand := t.sand
        supervision := t.supervision
        notices := t.notices }) : MiddleChange s t :=
  ⟨t.axles, t.intake, t.feedback, t.hold, t.sand, t.supervision, t.notices, s.emission.rewriteSet, s.emission.decision,
    h, fun _ k => k, fun _ => rfl, fun k => by rw [h]; exact k⟩

theorem MiddleChange.refl (s : State) : MiddleChange s s := MiddleChange.of rfl

theorem MiddleChange.trans {s t u : State} (h : MiddleChange s t) (k : MiddleChange t u) : MiddleChange s u := by
  obtain ⟨a, i, b, c, d, e, n, r, f, rfl, h1, h2, h3⟩ := h
  obtain ⟨a', i', b', c', d', e', n', r', f', rfl, k1, k2, k3⟩ := k
  exact ⟨a', i', b', c', d', e', n', r', f', rfl, fun x hx => k1 x (h1 x hx), fun ha => (k2 ha).trans (h2 ha),
    fun hs => k3 (h3 hs)⟩

theorem MiddleChange.ofSander {s t : State} (h : SanderChange s t) : MiddleChange s t := by
  obtain ⟨v, r, f, rfl, h1, h2⟩ := h
  exact ⟨s.axles, s.intake, s.feedback, s.hold, _, s.supervision, s.notices, r, f, rfl, h1, h2⟩

theorem MiddleChange.ofRewrite {s t : State} (h : RewriteChange s t) : MiddleChange s t :=
  MiddleChange.ofSander (SanderChange.ofRewrite h)

/-! ### What a change in the middle keeps -/

section
variable {s t : State} (h : MiddleChange s t)
include h

theorem MiddleChange.timeBase : t.timeBase = s.timeBase := by obtain ⟨_, _, _, _, _, _, _, _, _, rfl, -, -⟩ := h; rfl
theorem MiddleChange.control : t.control = s.control := by obtain ⟨_, _, _, _, _, _, _, _, _, rfl, -, -⟩ := h; rfl
theorem MiddleChange.shadow : t.shadow = s.shadow := by obtain ⟨_, _, _, _, _, _, _, _, _, rfl, -, -⟩ := h; rfl
theorem MiddleChange.bus : t.bus = s.bus := by obtain ⟨_, _, _, _, _, _, _, _, _, rfl, -, -⟩ := h; rfl
theorem MiddleChange.staging : t.staging = s.staging := by obtain ⟨_, _, _, _, _, _, _, _, _, rfl, -, -⟩ := h; rfl
theorem MiddleChange.overlay : t.overlay = s.overlay := by obtain ⟨_, _, _, _, _, _, _, _, _, rfl, -, -⟩ := h; rfl
theorem MiddleChange.races : t.races = s.races := by obtain ⟨_, _, _, _, _, _, _, _, _, rfl, -, -⟩ := h; rfl
theorem MiddleChange.pending : t.pending = s.pending := by obtain ⟨_, _, _, _, _, _, _, _, _, rfl, -, -⟩ := h; rfl
theorem MiddleChange.queue : t.emission.queue = s.emission.queue := by
  obtain ⟨_, _, _, _, _, _, _, _, _, rfl, -, -⟩ := h; rfl
theorem MiddleChange.streak : t.emission.streak = s.emission.streak := by
  obtain ⟨_, _, _, _, _, _, _, _, _, rfl, -, -⟩ := h; rfl
theorem MiddleChange.inFlight : t.emission.inFlight = s.emission.inFlight := by
  obtain ⟨_, _, _, _, _, _, _, _, _, rfl, -, -⟩ := h; rfl
theorem MiddleChange.active : t.active = s.active := by obtain ⟨_, _, _, _, _, _, _, _, _, rfl, -, -⟩ := h; rfl
theorem MiddleChange.keeps (b : BogieNo) (hb : s.emission.rewriteSet[b] = true) : t.emission.rewriteSet[b] = true := by
  obtain ⟨_, _, _, _, _, _, _, r, _, rfl, h1, -⟩ := h
  exact h1 b hb
theorem MiddleChange.setup (ha : s.active = false) : t.emission.rewriteSet = s.emission.rewriteSet := by
  obtain ⟨_, _, _, _, _, _, _, r, _, rfl, -, h2, -⟩ := h
  exact h2 ha
theorem MiddleChange.arbiter (hs : ArbiterSound s.emission) : ArbiterSound t.emission := by
  obtain ⟨_, _, _, _, _, _, _, r, _, -, -, -, h3⟩ := h
  exact h3 hs

end

/-! ### The operations of the middle -/

theorem raise_middle (k : NoticeKind) (i : Nat) (s : State) : MiddleChange s (raise k i s) := .of rfl

theorem acknowledge_middle (m : Half) (s : State) : MiddleChange s (acknowledge m s) := .of rfl

theorem clearPersistentFlags_middle (m : Byte) (s : State) : MiddleChange s (clearPersistentFlags m s) := .of rfl

theorem setAxle_middle (n : AxleNo) (x : Axle) (s : State) : MiddleChange s (setAxle n x s) := .of rfl

theorem setSander_middle (b : BogieNo) (x : Sander) (s : State) : MiddleChange s (setSander b x s) := .of rfl

theorem sandersReact_middle (s : State) : MiddleChange s (sandersReact s) := .ofSander (sandersReact_change s)

theorem requestRewrite_middle (b : BogieNo) (s : State) : MiddleChange s (requestRewrite b s) :=
  .ofRewrite (requestRewrite_change b s)

theorem requestAllRewrites_middle (s : State) : MiddleChange s (requestAllRewrites s) :=
  .ofRewrite (requestAllRewrites_change s)

theorem withHold_middle (s : State) (h : Hold) : MiddleChange s (s.withHold h) := .of rfl

theorem withSand_middle (s : State) (h : Sand) : MiddleChange s (s.withSand h) := .of rfl

theorem openWindow_middle (st : Vector Request 4) (q : Request) (s : State) : MiddleChange s (openWindow st q s) := by
  unfold openWindow
  split
  · exact withSand_middle _ _
  · exact .refl _

theorem sanderEvent_middle (st : Vector Request 4) (i : Option BogieNo) (b : BogieNo) (s : State) :
    MiddleChange s (sanderEvent st i b s) := .ofSander (sanderEvent_change _ _ _ _)

theorem sandExhausted_middle (b : BogieNo) (s : State) : MiddleChange s (sandExhausted b s) := by
  unfold sandExhausted
  simp only
  split
  · exact (raise_middle _ _ _).trans (setSander_middle _ _ _)
  · exact raise_middle _ _ _

theorem budgetFall_middle (b : BogieNo) (s : State) : MiddleChange s (budgetFall b s) := by
  unfold budgetFall
  simp only
  split_ifs
  · exact ((setSander_middle _ _ _).trans (raise_middle _ _ _)).trans (sandExhausted_middle _ _)
  · exact (setSander_middle _ _ _).trans (sandExhausted_middle _ _)
  · exact (setSander_middle _ _ _).trans (raise_middle _ _ _)
  · exact setSander_middle _ _ _

theorem refill_middle (b : BogieNo) (v : Half) (s : State) : MiddleChange s (refill b v s) := by
  unfold refill
  simp only
  split_ifs
  · exact setSander_middle _ _ _
  · exact (setSander_middle _ _ _).trans (setSander_middle _ _ _)
  · exact ((setSander_middle _ _ _).trans (setSander_middle _ _ _)).trans (sanderEvent_middle _ _ _ _)
  · exact setSander_middle _ _ _

theorem evaluateGate_middle (s : State) : MiddleChange s (evaluateGate s) := by
  unfold evaluateGate
  split
  · exact withHold_middle _ _
  · exact .refl _

theorem closeGate_middle (s : State) : MiddleChange s (closeGate s) :=
  (withHold_middle _ _).trans (withSand_middle _ _)

theorem updateReleaseWait_middle (before : Bool) (s : State) : MiddleChange s (updateReleaseWait before s) := by
  unfold updateReleaseWait
  split_ifs
  · exact withHold_middle _ _
  · exact .refl _
  · exact withHold_middle _ _

theorem latchRollback_middle (n : AxleNo) (s : State) : MiddleChange s (latchRollback n s) :=
  (((((withHold_middle _ _).trans (raise_middle _ _ _)).trans (closeGate_middle _)).trans
    (updateReleaseWait_middle _ _)).trans (requestAllRewrites_middle _)).trans (sandersReact_middle _)

theorem compareLatch_middle (s : State) : MiddleChange s (compareLatch s) := by
  unfold compareLatch
  repeat' split
  all_goals exact .of rfl

theorem clearLatch_middle (s : State) : MiddleChange s (clearLatch s) :=
  (withHold_middle _ _).trans (sandersReact_middle _)

theorem holdBogie_middle (b : BogieNo) (s : State) : MiddleChange s (holdBogie b s) := by
  unfold holdBogie
  split
  · exact .refl _
  · simp only
    split
    · exact (withHold_middle _ _).trans (clearLatch_middle _)
    · exact withHold_middle _ _

theorem holdStage_middle (b : BogieNo) (q : Request) (before : Bool) (s : State) :
    MiddleChange s (holdStage b q before s) := by
  unfold holdStage
  simp only
  split
  · exact (((evaluateGate_middle _).trans (closeGate_middle _)).trans (holdBogie_middle _ _)).trans
      (updateReleaseWait_middle _ _)
  · exact (evaluateGate_middle _).trans (updateReleaseWait_middle _ _)

theorem evaluateVref_middle (n : AxleNo) (s : State) : MiddleChange s (evaluateVref n s) := by
  unfold evaluateVref
  refine MiddleChange.trans ?_ ((compareLatch_middle _).trans (sandersReact_middle _))
  split
  · exact .of rfl
  · exact .refl _

theorem enterSlip_middle (n : AxleNo) (s : State) : MiddleChange s (enterSlip n s) := by
  unfold enterSlip
  simp only
  split
  · exact (((setAxle_middle _ _ _).trans (raise_middle _ _ _)).trans (raise_middle _ _ _)).trans
      ((requestRewrite_middle _ _).trans (sandersReact_middle _))
  · exact ((setAxle_middle _ _ _).trans (raise_middle _ _ _)).trans
      ((requestRewrite_middle _ _).trans (sandersReact_middle _))

theorem transition_middle (n : AxleNo) (s : State) : MiddleChange s (transition n s) := by
  unfold transition
  have slipOr (c : Bool) (t : State) (h : MiddleChange s t) : MiddleChange s (if c then enterSlip n s else t) := by
    cases c
    · exact h
    · exact enterSlip_middle n s
  simp only
  cases s.axles[n].state
  · refine slipOr _ _ ?_
    cases creepCondition s n
    · exact .refl _
    · exact setAxle_middle _ _ _
  · refine slipOr _ _ ?_
    split
    · exact setAxle_middle _ _ _
    · exact .refl _
  · cases slipEnds s n
    · exact .refl _
    · exact (setAxle_middle _ _ _).trans (sandersReact_middle _)
  · exact slipOr _ _ (.refl _)
  · exact setAxle_middle _ _ _

theorem evaluateAxle_middle (n : AxleNo) (v : Nat) (s : State) : MiddleChange s (evaluateAxle n v s) :=
  (setAxle_middle _ _ _).trans (transition_middle _ _)

theorem storeSample_middle (n : AxleNo) (v : Nat) (q : Quality) (d : Option Direction) (s : State) :
    MiddleChange s (storeSample n v q d s) := by
  unfold storeSample
  simp only
  have h := ((setAxle_middle n (s.axles[n].store v q s.timeBase) s).trans (evaluateVref_middle n _)).trans
    (evaluateAxle_middle n v _)
  split
  · exact h.trans (latchRollback_middle _ _)
  · exact h

theorem applySpeed_middle (n : AxleNo) (r : Record) (s : State) : MiddleChange s (applySpeed n r s) := by
  unfold applySpeed
  simp only
  have h1 := setAxle_middle n { s.axles[n] with lastSequence := some r[14] } s
  split_ifs
  · exact .refl _
  · have h2 := h1.trans (raise_middle .seqGap n.val _)
    split
    · exact h2
    · exact h2.trans (storeSample_middle _ _ _ _ _)
    · exact h2.trans (storeSample_middle _ _ _ _ _)
  · split
    · exact h1
    · exact h1.trans (storeSample_middle _ _ _ _ _)
    · exact h1.trans (storeSample_middle _ _ _ _ _)

theorem withFeedback_middle (s : State) (x : Vector Feedback 4) : MiddleChange s (s.withFeedback x) := .of rfl

theorem applyFeedback_middle (b : BogieNo) (r : Record) (s : State) : MiddleChange s (applyFeedback b r s) := by
  unfold applyFeedback
  simp only
  split_ifs
  · exact .refl _
  · exact ((raise_middle _ _ _).trans (withFeedback_middle _ _)).trans (evaluateGate_middle _)
  · exact (withFeedback_middle _ _).trans (evaluateGate_middle _)

theorem recoverFromLate_middle (b : BogieNo) (s : State) : MiddleChange s (recoverFromLate b s) :=
  MiddleChange.trans (.of rfl) (sandersReact_middle _)

theorem withSupervision_middle (s : State) (x : Vector Supervision 4) : MiddleChange s (s.withSupervision x) := .of rfl

theorem applyDemand_middle (b : BogieNo) (s : State) : MiddleChange s (applyDemand b s) := by
  unfold applyDemand
  simp only
  split
  · exact (withSupervision_middle _ _).trans (recoverFromLate_middle _ _)
  · exact withSupervision_middle _ _

theorem noteMotors_middle (b : BogieNo) (q : Request) (c : Commands) (s : State) :
    MiddleChange s (noteMotors b q c s) := .of rfl

theorem grantShare_middle (b : BogieNo) (c : Commands) (s : State) : MiddleChange s (grantShare b c s) := .of rfl

theorem noteShortfall_middle (b : BogieNo) (c : Commands) (s : State) : MiddleChange s (noteShortfall b c s) := by
  unfold noteShortfall
  split
  · exact raise_middle _ _ _
  · exact .refl _

theorem makeStanding_middle (b : BogieNo) (q : Request) (s : State) : MiddleChange s (makeStanding b q s) := .of rfl

theorem prepareIssue_middle (b : BogieNo) (q : Request) (s : State) : MiddleChange s (prepareIssue b q s) :=
  ((withHold_middle _ _).trans (openWindow_middle _ _ _)).trans (.ofSander (sandersEvent_change _ _ _))

theorem settleIssue_middle (b : BogieNo) (q : Request) (c : Commands) (before : Bool) (s : State) :
    MiddleChange s (settleIssue b q c before s) := by
  unfold settleIssue
  split
  · exact ((((noteShortfall_middle _ _ _).trans (noteMotors_middle _ _ _ _)).trans (grantShare_middle _ _ _)).trans
      (makeStanding_middle _ _ _)).trans (holdStage_middle _ _ _ _)
  · exact noteMotors_middle _ _ _ _

theorem freshnessExpires_middle (b : BogieNo) (s : State) : MiddleChange s (freshnessExpires b s) := .of rfl

theorem demandTimerExpires_middle (b : BogieNo) (s : State) : MiddleChange s (demandTimerExpires b s) :=
  ((withSupervision_middle _ _).trans (raise_middle _ _ _)).trans (requestRewrite_middle _ _)

theorem releaseWaitExpires_middle (s : State) : MiddleChange s (releaseWaitExpires s) := by
  unfold releaseWaitExpires
  simp only
  split
  · exact withHold_middle _ _
  · exact (withHold_middle _ _).trans (raise_middle _ _ _)

theorem settlingExpires_middle (s : State) : MiddleChange s (settlingExpires s) := by
  unfold settlingExpires
  simp only
  split
  · exact (withHold_middle _ _).trans (clearLatch_middle _)
  · exact withHold_middle _ _

theorem windowExpires_middle (s : State) : MiddleChange s (windowExpires s) :=
  (withSand_middle _ _).trans (sandersReact_middle _)

theorem dwellExpires_middle (b : BogieNo) (s : State) : MiddleChange s (dwellExpires b s) :=
  (setSander_middle _ _ _).trans (sanderEvent_middle _ _ _ _)

theorem runExpires_middle (b : BogieNo) (s : State) : MiddleChange s (runExpires b s) := by
  unfold runExpires
  split
  · exact setSander_middle _ _ _
  · exact setSander_middle _ _ _

theorem pauseExpires_middle (b : BogieNo) (s : State) : MiddleChange s (pauseExpires b s) :=
  (setSander_middle _ _ _).trans (sanderEvent_middle _ _ _ _)

end Sys2Proof.Machine
end

