-- ==== Sys2Proof/Laws/Access.lean ====
section
/-! SUPPORT. What an access presented at the U-port becomes, said once for each treatment, and that the rows of an
access all mean the same. -/

namespace Sys2Proof.Machine

/-! ### Rows and accesses -/

theorem exec_write {c : Instr} {tag : Tag} {a : Address} {z : AccessSize} {d : Word} (s : State)
    (h : writeOf c = some (tag, a, z, d)) : exec c s = done (presentWrite tag a z d s) := by
  cases c <;> simp only [writeOf, Option.some.injEq, Prod.mk.injEq, reduceCtorEq] at h <;>
    obtain ⟨rfl, rfl, rfl, rfl⟩ := h <;> rfl

theorem exec_read {c : Instr} {tag : Tag} {a : Address} {z : AccessSize} (s : State)
    (h : readOf c = some (tag, a, z)) : exec c s = done (presentRead tag a z s) := by
  cases c <;> simp only [readOf, Option.some.injEq, Prod.mk.injEq, reduceCtorEq] at h <;>
    obtain ⟨rfl, rfl, rfl⟩ := h <;> rfl

/-- Every command ends with its lines settled. -/
theorem exec_done (c : Instr) (s : State) : ∃ t, exec c s = done t := by
  cases c <;> exact ⟨_, rfl⟩

/-- Every command completes, and its next state's lines stand at their levels. -/
theorem exec_completes (c : Instr) (s : State) : ∃ t, exec c s = .next t ∧ LinesSettled t := by
  obtain ⟨t, h⟩ := exec_done c s
  exact ⟨settle t, h, linesSettled_settle t⟩

/-- While an access is in progress the part takes no other. -/
theorem presentWrite_busy {s : State} (tag : Tag) (a : Address) (z : AccessSize) (d : Word)
    (h : s.bus.access.isSome = true) : presentWrite tag a z d s = s := by
  simp [presentWrite, h]

theorem presentRead_busy {s : State} (tag : Tag) (a : Address) (z : AccessSize) (h : s.bus.access.isSome = true) :
    presentRead tag a z s = s := by
  simp [presentRead, h]

theorem presentWrite_free {s : State} (tag : Tag) (a : Address) (z : AccessSize) (d : Word)
    (h : s.bus.access = none) :
    presentWrite tag a z d s =
      match classifyWrite s tag a z with
      | .misaligned => answer tag .err none s
      | .page off => pageWriteTreatment { tag := tag, address := a, size := z, write := some d } d off s
      | .maskRefused => refuseWrite tag tag.val s
      | .staging p => stagingTreatment { tag := tag, address := a, size := z, write := some d } d p s
      | .commit p w => commitTreatment { tag := tag, address := a, size := z, write := some d } d p w s
      | .pass => passWriteTreatment { tag := tag, address := a, size := z, write := some d } d s := by
  refine (if_neg (by simp [h])).trans ?_
  cases classifyWrite s tag a z <;> rfl

theorem presentRead_free {s : State} (tag : Tag) (a : Address) (z : AccessSize) (h : s.bus.access = none) :
    presentRead tag a z s =
      match classifyRead s tag a z with
      | .misaligned => answer tag .err none s
      | .page _ => pageReadTreatment { tag := tag, address := a, size := z, write := none } s
      | .maskRefused => answer tag .err none (raise .accessRefused tag.val (reportRefusedRead tag a z s))
      | .pass => passReadTreatment { tag := tag, address := a, size := z, write := none } s := by
  refine (if_neg (by simp [h])).trans ?_
  cases classifyRead s tag a z <;> rfl

/-! ### Classes -/

theorem classifyWrite_page {s : State} {a : Address} {z : AccessSize} {off : Nat} (tag : Tag) (h : OnPage s a z off) :
    classifyWrite s tag a z = .page off := by
  obtain ⟨-, h1, h2⟩ := h
  simp [classifyWrite, h1, h2]

theorem classifyRead_page {s : State} {a : Address} {z : AccessSize} {off : Nat} (tag : Tag) (h : OnPage s a z off) :
    classifyRead s tag a z = .page off := by
  obtain ⟨-, h1, h2⟩ := h
  simp [classifyRead, h1, h2]

theorem classifyWrite_refused {s : State} {tag : Tag} {a : Address} {z : AccessSize} {w : WindowNo}
    (h : OffPage s a z) (hw : matchedWindow s a = some w) (hm : s.shadow.windowWriter w tag = false) :
    classifyWrite s tag a z = .maskRefused := by
  obtain ⟨-, h1, h2⟩ := h
  simp [classifyWrite, h1, h2, hw, hm]

theorem classifyRead_refused {s : State} {tag : Tag} {a : Address} {z : AccessSize} {w : WindowNo}
    (h : OffPage s a z) (hw : matchedWindow s a = some w) (hm : s.shadow.windowReader w tag = false) :
    classifyRead s tag a z = .maskRefused := by
  obtain ⟨-, h1, h2⟩ := h
  simp [classifyRead, h1, h2, hw, hm]

theorem classifyWrite_staging {s : State} {tag : Tag} {a : Address} {z : AccessSize} {w : WindowNo} {k : RecordKind}
    (h : StagingTo s tag a z w k) : classifyWrite s tag a z = .staging (s.shadow.placeAt w k a) := by
  obtain ⟨⟨⟨-, h1, h2⟩, hw, hm, hk⟩, ho⟩ := h
  simp [classifyWrite, h1, h2, hw, hm, hk, ho]

theorem classifyWrite_commit {s : State} {tag : Tag} {a : Address} {z : AccessSize} {w : WindowNo} {k : RecordKind}
    (h : CommitTo s tag a z w k) : classifyWrite s tag a z = .commit (s.shadow.placeAt w k a) w := by
  obtain ⟨⟨⟨-, h1, h2⟩, hw, hm, hk⟩, ho⟩ := h
  simp [classifyWrite, h1, h2, hw, hm, hk, ho]

theorem classifyWrite_passing {s : State} {tag : Tag} {a : Address} {z : AccessSize} (h : PassingWrite s tag a z) :
    classifyWrite s tag a z = .pass := by
  obtain ⟨⟨-, h1, h2⟩, hw | ⟨w, hw, hm, hk⟩⟩ := h
  · simp [classifyWrite, h1, h2, hw]
  · simp [classifyWrite, h1, h2, hw, hm, hk]

theorem classifyRead_passing {s : State} {tag : Tag} {a : Address} {z : AccessSize} (h : PassingRead s tag a z) :
    classifyRead s tag a z = .pass := by
  obtain ⟨⟨-, h1, h2⟩, hw | ⟨w, hw, hm⟩⟩ := h
  · simp [classifyRead, h1, h2, hw]
  · simp [classifyRead, h1, h2, hw, hm]

/-! ### Treatments -/

theorem presentWrite_page {s : State} {a : Address} {z : AccessSize} {off : Nat} (tag : Tag) (d : Word)
    (h : OnPage s a z off) :
    presentWrite tag a z d s =
      pageWriteTreatment { tag := tag, address := a, size := z, write := some d } d off s := by
  rw [presentWrite_free tag a z d h.1, classifyWrite_page tag h]

theorem presentRead_page {s : State} {a : Address} {z : AccessSize} {off : Nat} (tag : Tag) (h : OnPage s a z off) :
    presentRead tag a z s = pageReadTreatment { tag := tag, address := a, size := z, write := none } s := by
  rw [presentRead_free tag a z h.1, classifyRead_page tag h]

theorem presentWrite_staging {s : State} {tag : Tag} {a : Address} {z : AccessSize} {w : WindowNo} {k : RecordKind}
    (d : Word) (h : StagingTo s tag a z w k) :
    presentWrite tag a z d s =
      stagingTreatment { tag := tag, address := a, size := z, write := some d } d (s.shadow.placeAt w k a) s := by
  rw [presentWrite_free tag a z d h.1.1.1, classifyWrite_staging h]

theorem presentWrite_commit {s : State} {tag : Tag} {a : Address} {z : AccessSize} {w : WindowNo} {k : RecordKind}
    (d : Word) (h : CommitTo s tag a z w k) :
    presentWrite tag a z d s =
      commitTreatment { tag := tag, address := a, size := z, write := some d } d (s.shadow.placeAt w k a) w s := by
  rw [presentWrite_free tag a z d h.1.1.1, classifyWrite_commit h]

theorem presentWrite_passing {s : State} {tag : Tag} {a : Address} {z : AccessSize} (d : Word)
    (h : PassingWrite s tag a z) :
    presentWrite tag a z d s = passWriteTreatment { tag := tag, address := a, size := z, write := some d } d s := by
  rw [presentWrite_free tag a z d h.1.1, classifyWrite_passing h]

theorem presentRead_passing {s : State} {tag : Tag} {a : Address} {z : AccessSize} (h : PassingRead s tag a z) :
    presentRead tag a z s = passReadTreatment { tag := tag, address := a, size := z, write := none } s := by
  rw [presentRead_free tag a z h.1.1, classifyRead_passing h]

/-- An accepted page write is its actions on the state that holds its entry and the bus. -/
theorem pageWriteTreatment_accept {s : State} {a : Address} {z : AccessSize} {d : Word} {off : Nat}
    (hd : decidePageWrite s 0 off z d = .accept) (hr : HasRoom s) :
    pageWriteTreatment { tag := 0, address := a, size := z, write := some d } d off s =
      pageActions off z d (pageWriteTaken s a z d) := by
  simp only [pageWriteTreatment, hd, full_of_room hr, Bool.false_eq_true, if_false]
  rfl

theorem pageWriteTreatment_retry {s : State} {a : Address} {z : AccessSize} {d : Word} {off : Nat}
    (hd : decidePageWrite s 0 off z d = .accept) (hr : ¬ HasRoom s) :
    pageWriteTreatment { tag := 0, address := a, size := z, write := some d } d off s = answer 0 .retry none s := by
  simp only [pageWriteTreatment, hd, (full_iff s).2 hr, if_true]

end Sys2Proof.Machine
end

