-- ==== Sys2Proof/Laws/Bytes.lean ====
section
/-! SUPPORT. Bytes of tables and records: what a write leaves at each place, and the empty forms of the control
record's actions. -/

namespace Sys2Proof.Machine

/-- An aligned write leaves its bytes at their places and every other byte as it was (R14, R166). -/
theorem writeBytes_get {n : Nat} (v : Vector Byte n) (off : Nat) (z : AccessSize) (d : Word) (i : Fin n) :
    (writeBytes v off z d)[i] =
      if off ≤ i.val ∧ i.val < off + z.bytes then byteOf d (i.val - off) else v[i] := by
  by_cases h : off ≤ i.val ∧ i.val < off + z.bytes
  · rw [if_pos h]
    obtain ⟨k, hk⟩ := Nat.exists_eq_add_of_le h.1
    have hi : i.val - off = k := by omega
    rw [hi]
    cases z
    · have : k = 0 := by simp only [AccessSize.bytes] at h; omega
      subst this
      simp [writeBytes, hk]
    · have : k = 0 ∨ k = 1 := by simp only [AccessSize.bytes] at h; omega
      rcases this with rfl | rfl <;> simp [writeBytes, hk]
    · have : k = 0 ∨ k = 1 ∨ k = 2 ∨ k = 3 := by simp only [AccessSize.bytes] at h; omega
      rcases this with rfl | rfl | rfl | rfl <;> simp [writeBytes, hk]
  · rw [if_neg h]
    have h0 : off ≠ i.val := by intro e; apply h; cases z <;> simp only [AccessSize.bytes] <;> omega
    cases z
    · simp [writeBytes, h0]
    · have h1 : off + 1 ≠ i.val := by simp only [AccessSize.bytes] at h; omega
      simp [writeBytes, h0, h1]
    · have h1 : off + 1 ≠ i.val := by simp only [AccessSize.bytes] at h; omega
      have h2 : off + 2 ≠ i.val := by simp only [AccessSize.bytes] at h; omega
      have h3 : off + 3 ≠ i.val := by simp only [AccessSize.bytes] at h; omega
      simp [writeBytes, h0, h1, h2, h3]

theorem acked_zero (t : Vector Notice 15) : acked 0 t = t := by
  ext i hi : 1
  simp [acked]

theorem unpersisted_zero (t : Vector Axle 8) : unpersisted 0 t = t := by
  ext i hi : 1
  simp [unpersisted]

theorem acknowledge_zero (s : State) : acknowledge 0 s = s := by
  rw [acknowledge_eq, acked_zero]

theorem clearPersistentFlags_zero (s : State) : clearPersistentFlags 0 s = s := by
  rw [clearPersistentFlags_eq, unpersisted_zero]

/-- A byte that a control record write does not cover (R168). -/
theorem coveredByte_none {off : Nat} {z : AccessSize} {i : Nat} (d : Word)
    (h : ¬ (off ≤ 0x20 + i ∧ 0x20 + i < off + z.bytes)) : coveredByte off z d i = none := by
  unfold coveredByte
  rw [if_neg h]

theorem coveredByte_some {off : Nat} {z : AccessSize} {i : Nat} (d : Word)
    (h : off ≤ 0x20 + i ∧ 0x20 + i < off + z.bytes) :
    coveredByte off z d i = some (byteOf d (0x20 + i - off)) := by
  unfold coveredByte
  rw [if_pos h]

theorem carriedRefill_none {off : Nat} {z : AccessSize} (d : Word) (b : BogieNo) (s : State)
    (h : ¬ (off ≤ 0x24 + 2 * b.val ∧ 0x24 + 2 * b.val < off + z.bytes)) : carriedRefill off z d b s = s := by
  unfold carriedRefill
  rw [coveredByte_none d (by omega)]

theorem carriedModeRequest_none {off : Nat} {z : AccessSize} (d : Word) (s : State) (h : 0x20 < off) :
    carriedModeRequest off z d s = s := by
  unfold carriedModeRequest
  rw [coveredByte_none d (by omega)]

/-- The halfword that two uncovered bytes leave is zero. -/
theorem carriedAcknowledge_none {off : Nat} {z : AccessSize} (d : Word) (h : 0x24 ≤ off) :
    carriedAcknowledge off z d = 0 := by
  unfold carriedAcknowledge
  rw [coveredByte_none d (by omega), coveredByte_none d (by omega)]
  rfl

theorem carriedMask_none {off : Nat} {z : AccessSize} (d : Word) (h : 0x22 ≤ off) : carriedMask off z d = 0 := by
  unfold carriedMask
  rw [coveredByte_none d (by omega)]
  rfl

/-- A control record write below the refills does the clears and then its mode request (R168). -/
theorem controlActions_low {off : Nat} {z : AccessSize} (d : Word) (s : State) (h : off + z.bytes ≤ 0x24) :
    controlActions off z d s =
      carriedModeRequest off z d
        (acknowledge (carriedAcknowledge off z d) (clearPersistentFlags (carriedMask off z d) s)) := by
  unfold controlActions
  simp only [foldl_upTo4]
  rw [carriedRefill_none d 3 _ (by simp; omega), carriedRefill_none d 2 _ (by simp; omega),
    carriedRefill_none d 1 _ (by simp; omega), carriedRefill_none d 0 _ (by simp; omega)]
  rfl

/-- A control record write to its refills does the refills alone (R168). -/
theorem controlActions_refills {off : Nat} {z : AccessSize} (d : Word) (s : State) (h : 0x24 ≤ off) :
    controlActions off z d s = upTo4.foldl (fun t b => carriedRefill off z d b t) s := by
  unfold controlActions
  rw [carriedModeRequest_none d _ (by omega), carriedAcknowledge_none d h, acknowledge_zero]
  have : (coveredByte off z d 1).getD 0 = 0 := carriedMask_none d (by omega)
  rw [this, clearPersistentFlags_zero]

/-- A control record write beyond its refills does nothing (R165). -/
theorem controlActions_none {off : Nat} {z : AccessSize} (d : Word) (s : State) (h : 0x2C ≤ off) :
    controlActions off z d s = s := by
  rw [controlActions_refills d s (by omega), foldl_upTo4, carriedRefill_none d 3 _ (by simp; omega),
    carriedRefill_none d 2 _ (by simp; omega), carriedRefill_none d 1 _ (by simp; omega),
    carriedRefill_none d 0 _ (by simp; omega)]

/-! ### Values from their bytes, and masks -/

theorem byteOf_bit {w : Nat} (x : BitVec w) (k i : Nat) (h : i < 8) :
    (byteOf x k).getLsbD i = x.getLsbD (8 * k + i) := by
  simp [byteOf, h]

theorem le16_byteOf (x : Half) : le16 (byteOf x 0) (byteOf x 1) = x := by
  apply BitVec.eq_of_getLsbD_eq
  intro i hi
  unfold le16
  rw [BitVec.getLsbD_append]
  split
  · rw [byteOf_bit x 0 i (by omega)]
    simp
  · rw [byteOf_bit x 1 _ (by omega)]
    congr 1
    omega

theorem le32_byteOf (x : Word) : le32 (byteOf x 0) (byteOf x 1) (byteOf x 2) (byteOf x 3) = x := by
  apply BitVec.eq_of_getLsbD_eq
  intro i hi
  unfold le32
  rw [BitVec.getLsbD_append, BitVec.getLsbD_append, BitVec.getLsbD_append]
  split
  · rw [byteOf_bit x 0 i (by omega)]
    simp
  · split
    · rw [byteOf_bit x 1 _ (by omega)]
      congr 1
      omega
    · split
      · rw [byteOf_bit x 2 _ (by omega)]
        congr 1
        omega
      · rw [byteOf_bit x 3 _ (by omega)]
        congr 1
        omega

/-- Bit i of a mask is its predicate at i. -/
theorem maskOf_bit : ∀ (n : Nat) (p : Fin n → Bool) (i : Fin n), (maskOf n p).getLsbD i.val = p i
  | 0, _, i => i.elim0
  | n + 1, p, i => by
    unfold maskOf
    rw [BitVec.getLsbD_cons]
    split
    · rename_i h
      exact congrArg p (Fin.ext h.symm)
    · rename_i h
      have h2 : i.val < n := by omega
      exact maskOf_bit n (fun j => p j.castSucc) ⟨i.val, h2⟩

theorem topNotice_le (t : Vector Notice 15) : topNotice t ≤ 15 := by
  unfold topNotice
  split
  · rename_i i h
    have := (List.findIdx?_eq_some_iff_getElem.1 h).1
    simp at this
    omega
  · omega

end Sys2Proof.Machine
end

