-- ==== Sys2Proof/Laws/Adhesion.lean ====
section
/-! SUPPORT. What the operations on a stored sample do to the axle records, Vref, the hold unit and the notices. -/

namespace Sys2Proof.Machine

/-! ### What rewrite requests and the sanders leave alone -/

section
variable (s : State) (b : BogieNo)

theorem sandersReact_axles : (sandersReact s).axles = s.axles := by
  obtain ⟨_, _, _, h, -, -⟩ := sandersReact_change s; rw [h]
theorem sandersReact_intake : (sandersReact s).intake = s.intake := by
  obtain ⟨_, _, _, h, -, -⟩ := sandersReact_change s; rw [h]
theorem sandersReact_hold : (sandersReact s).hold = s.hold := by
  obtain ⟨_, _, _, h, -, -⟩ := sandersReact_change s; rw [h]
theorem sandersReact_notices : (sandersReact s).notices = s.notices := by
  obtain ⟨_, _, _, h, -, -⟩ := sandersReact_change s; rw [h]
theorem requestRewrite_axles : (requestRewrite b s).axles = s.axles := by
  obtain ⟨_, _, h, -, -⟩ := requestRewrite_change b s; rw [h]
theorem requestRewrite_intake : (requestRewrite b s).intake = s.intake := by
  obtain ⟨_, _, h, -, -⟩ := requestRewrite_change b s; rw [h]
theorem requestRewrite_hold : (requestRewrite b s).hold = s.hold := by
  obtain ⟨_, _, h, -, -⟩ := requestRewrite_change b s; rw [h]
theorem requestRewrite_notices : (requestRewrite b s).notices = s.notices := by
  obtain ⟨_, _, h, -, -⟩ := requestRewrite_change b s; rw [h]
theorem requestAllRewrites_axles : (requestAllRewrites s).axles = s.axles := by
  obtain ⟨_, _, h, -, -⟩ := requestAllRewrites_change s; rw [h]
theorem requestAllRewrites_intake : (requestAllRewrites s).intake = s.intake := by
  obtain ⟨_, _, h, -, -⟩ := requestAllRewrites_change s; rw [h]
theorem requestAllRewrites_hold : (requestAllRewrites s).hold = s.hold := by
  obtain ⟨_, _, h, -, -⟩ := requestAllRewrites_change s; rw [h]
theorem requestAllRewrites_notices : (requestAllRewrites s).notices = s.notices := by
  obtain ⟨_, _, h, -, -⟩ := requestAllRewrites_change s; rw [h]

end

/-! ### Entry into SLIP and the transitions (R52 to R60) -/

theorem enterSlip_axles (n : AxleNo) (s : State) :
    (enterSlip n s).axles = s.axles.set n (s.axles[n].enterSlip s.shadow (axleMode s n) s.timeBase) := by
  unfold enterSlip
  simp only [sandersReact_axles, requestRewrite_axles]
  split <;> rfl

theorem enterSlip_intake (n : AxleNo) (s : State) : (enterSlip n s).intake = s.intake := by
  unfold enterSlip
  simp only [sandersReact_intake, requestRewrite_intake]
  split <;> rfl

theorem enterSlip_hold (n : AxleNo) (s : State) : (enterSlip n s).hold = s.hold := by
  unfold enterSlip
  simp only [sandersReact_hold, requestRewrite_hold]
  split <;> rfl

/-- The record keeps what the intake wrote, and its slip and acceleration. -/
def Axle.SameSample (x y : Axle) : Prop :=
  x.ring = y.ring ∧ x.position = y.position ∧ x.fill = y.fill ∧ x.latest = y.latest ∧
    x.lastArrival = y.lastArrival ∧ x.lastSequence = y.lastSequence ∧ x.staleness = y.staleness ∧
    x.slip = y.slip ∧ x.acceleration = y.acceleration

theorem Axle.SameSample.refl (x : Axle) : x.SameSample x :=
  ⟨rfl, rfl, rfl, rfl, rfl, rfl, rfl, rfl, rfl⟩

/-- A transition rewrites the record of its axle alone, keeps the sample in it, and leaves Vref and the hold unit. -/
theorem transition_axles (n : AxleNo) (s : State) :
    ∃ x : Axle, (transition n s).axles = s.axles.set n x ∧ x.SameSample s.axles[n] ∧
      (transition n s).intake = s.intake ∧ (transition n s).hold = s.hold := by
  have self : s.axles = s.axles.set n s.axles[n] := by simp
  have same : s.axles[n].SameSample s.axles[n] := .refl _
  have slips : ∃ x : Axle, (enterSlip n s).axles = s.axles.set n x ∧ x.SameSample s.axles[n] ∧
      (enterSlip n s).intake = s.intake ∧ (enterSlip n s).hold = s.hold :=
    ⟨_, enterSlip_axles n s, same, enterSlip_intake n s, enterSlip_hold n s⟩
  unfold transition
  simp only
  split
  · split
    · exact slips
    · split
      · exact ⟨_, rfl, same, rfl, rfl⟩
      · exact ⟨_, self, same, rfl, rfl⟩
  · split
    · exact slips
    · split
      · exact ⟨_, rfl, same, rfl, rfl⟩
      · exact ⟨_, self, same, rfl, rfl⟩
  · split
    · rw [sandersReact_axles, sandersReact_intake, sandersReact_hold]
      exact ⟨_, rfl, same, rfl, rfl⟩
    · exact ⟨_, self, same, rfl, rfl⟩
  · split
    · exact slips
    · exact ⟨_, self, same, rfl, rfl⟩
  · exact ⟨_, rfl, same, rfl, rfl⟩

/-! ### The evaluation of Vref, and a latching -/

theorem compareLatch_keeps (s : State) :
    (compareLatch s).axles = s.axles ∧ (compareLatch s).intake = s.intake ∧ (compareLatch s).notices = s.notices ∧
      (compareLatch s).hold.direction = s.hold.direction := by
  unfold compareLatch
  split
  · split
    · split <;> exact ⟨rfl, rfl, rfl, rfl⟩
    · split <;> exact ⟨rfl, rfl, rfl, rfl⟩
    · exact ⟨rfl, rfl, rfl, rfl⟩
  · exact ⟨rfl, rfl, rfl, rfl⟩

/-- What the comparison with Vref makes of the latch (R103). -/
theorem compareLatch_hold (s : State) (h : s.active = true) :
    (s.hold.latch = .latched → s.vref < s.shadow.standstillSpeed → (compareLatch s).hold =
      { s.hold with latch := .settling, settling := some s.timeBase, settled := false }) ∧
    (s.hold.latch = .latched → s.shadow.standstillSpeed ≤ s.vref → (compareLatch s).hold = s.hold) ∧
    (s.hold.latch = .settling → s.shadow.standstillSpeed ≤ s.vref → (compareLatch s).hold =
      { s.hold with latch := .latched, settling := none, settled := false }) ∧
    (s.hold.latch = .settling → s.vref < s.shadow.standstillSpeed → (compareLatch s).hold = s.hold) ∧
    (s.hold.latch = .clear → (compareLatch s).hold = s.hold) := by
  unfold compareLatch
  rw [if_pos h]
  refine ⟨fun k v => ?_, fun k v => ?_, fun k v => ?_, fun k v => ?_, fun k => ?_⟩
  · rw [k]
    simp only [if_pos v]
    rfl
  · rw [k]
    simp only [if_neg (Nat.not_lt.2 v)]
  · rw [k]
    simp only [if_pos v]
    rfl
  · rw [k]
    simp only [if_neg (Nat.not_le.2 v)]
  · rw [k]

/-- An evaluation of Vref moves Vref as R37 and R38 say, and no axle record, notice or direction. -/
theorem evaluateVref_keeps (n : AxleNo) (s : State) :
    (evaluateVref n s).axles = s.axles ∧ (evaluateVref n s).hold.direction = s.hold.direction ∧
      (evaluateVref n s).notices = s.notices ∧
      (evaluateVref n s).intake =
        match candidateSpeed s n with
        | some c => s.intake.toward s.shadow.slope c
        | none => s.intake := by
  unfold evaluateVref
  simp only
  rw [sandersReact_axles, sandersReact_hold, sandersReact_notices, sandersReact_intake]
  generalize candidateSpeed s n = c
  cases c with
  | none =>
    have h := compareLatch_keeps s
    exact ⟨h.1, h.2.2.2, h.2.2.1, h.2.1⟩
  | some c =>
    have h := compareLatch_keeps (s.withIntake (s.intake.toward s.shadow.slope c))
    exact ⟨h.1, h.2.2.2, h.2.2.1, h.2.1⟩

/-- The gate's evaluation writes the gate and, where it opens it, the release wait. -/
theorem evaluateGate_eq (s : State) : evaluateGate s = s ∨
    (s.hold.gate = .closed ∧ evaluateGate s = s.withHold { s.hold with gate := .opened, releaseWait := none }) := by
  unfold evaluateGate
  split
  · rename_i h
    simp only [Bool.and_eq_true, decide_eq_true_eq] at h
    exact .inr ⟨h.1.2, rfl⟩
  · exact .inl rfl

theorem updateReleaseWait_eq (before : Bool) (s : State) :
    updateReleaseWait before s = s.withHold
      { s.hold with
        releaseWait :=
          if releaseWaitHolds s = true then (if before = true then s.hold.releaseWait else some s.timeBase) else none } := by
  unfold updateReleaseWait
  cases releaseWaitHolds s <;> cases before <;> rfl

theorem updateReleaseWait_keeps (before : Bool) (s : State) :
    (updateReleaseWait before s).axles = s.axles ∧ (updateReleaseWait before s).intake = s.intake ∧
      (updateReleaseWait before s).hold.latch = s.hold.latch ∧
      (updateReleaseWait before s).notices = s.notices := by
  unfold updateReleaseWait
  split
  · exact ⟨rfl, rfl, rfl, rfl⟩
  · split
    · exact ⟨rfl, rfl, rfl, rfl⟩
    · exact ⟨rfl, rfl, rfl, rfl⟩

/-- A latching leaves the axle records and Vref, and raises ROLLBACK alone (R102). -/
theorem latchRollback_facts (n : AxleNo) (s : State) :
    (latchRollback n s).axles = s.axles ∧ (latchRollback n s).intake = s.intake ∧
      (latchRollback n s).hold.latch = .latched ∧
      (latchRollback n s).notices = noted .rollback n.val s.timeBase s.notices := by
  unfold latchRollback
  simp only [sandersReact_axles, sandersReact_intake, sandersReact_hold, sandersReact_notices, requestAllRewrites_axles,
    requestAllRewrites_intake, requestAllRewrites_hold, requestAllRewrites_notices]
  obtain ⟨h1, h2, h3, h4⟩ := updateReleaseWait_keeps false
    (closeGate (raise .rollback n.val (s.withHold
      { s.hold with
        latch := .latched
        held := BogieSet.none
        settling := none
        settled := false })))
  exact ⟨h1, h2, h3, h4⟩

end Sys2Proof.Machine
end

