-- ==== Sys2Proof/Laws/Step.lean ====
section
/-! SUPPORT. What a step is: the front command, a due event, or a microsecond; and what it takes to show that every
step keeps a property. -/

namespace Sys2Proof.Machine

theorem step_front (c : Instr) (rest : List Instr) (s : State) (h : s.pending = c :: rest) :
    step s = exec c (s.withPending rest) := by
  unfold step
  rw [h]

theorem step_idle (s : State) (h : s.pending = []) : step s = idle s := by
  unfold step
  rw [h]

theorem takenEvent_none (s : State) (h : dueEvents s = []) : takenEvent s = none := by
  unfold takenEvent
  rw [h]

/-- The event taken is one that is due. -/
theorem takenEvent_some (s : State) (h : dueEvents s ≠ []) : ∃ c ∈ dueEvents s, takenEvent s = some c := by
  unfold takenEvent
  rcases hd : dueEvents s with _ | ⟨c, _ | ⟨d, rest⟩⟩
  · exact absurd hd h
  · exact ⟨c, by simp, rfl⟩
  · have lt : Config.raceOrder s.races % (rest.length + 2) < (c :: d :: rest).length :=
      Nat.mod_lt _ (by omega)
    exact ⟨_, List.getElem_mem lt, List.getElem?_eq_getElem lt⟩

theorem idle_none (s : State) (h : dueEvents s = []) : idle s = .next (tick s) := by
  unfold idle
  rw [takenEvent_none s h]

theorem idle_some (s : State) (h : dueEvents s ≠ []) :
    ∃ c ∈ dueEvents s, idle s = exec c (s.withRaces (s.races + 1)) := by
  obtain ⟨c, hc, ht⟩ := takenEvent_some s h
  refine ⟨c, hc, ?_⟩
  unfold idle
  rw [ht]

/-- A property that the commands, the passing of time and the model's own fields keep is one that every step keeps. -/
theorem step_keeps (Inv : State → Prop) (hp : ∀ s l, Inv s → Inv (s.withPending l))
    (hr : ∀ s k, Inv s → Inv (s.withRaces k)) (ht : ∀ s, Inv s → Inv (tick s))
    (he : ∀ c s t, Inv s → exec c s = done t → Inv (settle t)) (s t : State) (h : Inv s) (e : step s = .next t) :
    Inv t := by
  have run : ∀ c u, Inv u → exec c u = .next t → Inv t := by
    intro c u hu eu
    obtain ⟨v, hv⟩ := exec_done c u
    have k := he c u v hu hv
    rw [hv] at eu
    simp only [done, Host.Outcome.next.injEq] at eu
    exact eu ▸ k
  rcases hq : s.pending with _ | ⟨c, rest⟩
  · rw [step_idle s hq] at e
    by_cases hd : dueEvents s = []
    · rw [idle_none s hd] at e
      simp only [Host.Outcome.next.injEq] at e
      exact e ▸ ht s h
    · obtain ⟨c, -, hc⟩ := idle_some s hd
      rw [hc] at e
      exact run c _ (hr s _ h) e
  · rw [step_front c rest s hq] at e
    exact run c _ (hp s _ h) e

end Sys2Proof.Machine
end

