-- ==== Sys2Proof/Laws/DPort.lean ====
section
/-! SUPPORT. What an answer of the D-port, a failure and the end of an access do, said once: which flight an answer is to,
what freeing the port leaves, and what FALLBACK entry can change. -/

namespace Sys2Proof.Machine

theorem settle_settle (s : State) : settle (settle s) = settle s := rfl

theorem done_of_eq {s t : State} (h : s = t) : done s = .next (settle t) := by rw [h]; rfl

/-! ### Answers and failures (R136) -/

/-- An answer to the access in flight, named or not, is taken. -/
theorem answeredFlight_taken {s : State} {f : Flight} {began : Option Word} (h : s.emission.inFlight = some f)
    (hb : began = none ∨ began = some f.start) : answeredFlight s began = some f := by
  simp [answeredFlight, h, hb]

/-- An answer to another access is disregarded. -/
theorem answeredFlight_late {s : State} {began : Word} (h : ∀ f, s.emission.inFlight = some f → f.start ≠ began) :
    answeredFlight s (some began) = none := by
  unfold answeredFlight
  cases hf : s.emission.inFlight with
  | none => rfl
  | some f => simpa using fun e => h f hf e.symm

theorem exec_ack {s : State} {f : Flight} {began : Option Word} (d : Word) (h : s.emission.inFlight = some f)
    (hb : began = none ∨ began = some f.start) : exec (.dPortAck d began) s = done (passFlight f d s) := by
  show execDPortAck d s began = _
  simp only [execDPortAck, answeredFlight_taken h hb]

theorem exec_late {s : State} {c : Instr} {d began : Word} (hc : c = .dPortAck d (some began) ∨ c = .dPortErr (some began))
    (h : ∀ f, s.emission.inFlight = some f → f.start ≠ began) : exec c s = done s := by
  rcases hc with rfl | rfl
  · show execDPortAck d s (some began) = _
    simp only [execDPortAck, answeredFlight_late h]
  · show execDPortErr s (some began) = _
    simp only [execDPortErr, answeredFlight_late h]

/-- The three events that fail an access all fail it alike. -/
theorem exec_fails {s : State} {c : Instr} (h : FailsFlight s c) :
    ∃ f, s.emission.inFlight = some f ∧ exec c s = done (failFlight f s) := by
  obtain ⟨f, hf, rfl | rfl | ⟨rfl, ht⟩⟩ := h
  · refine ⟨f, hf, ?_⟩
    show execDPortErr s none = _
    simp only [execDPortErr, answeredFlight_taken hf (.inl rfl)]
  · refine ⟨f, hf, ?_⟩
    show execDPortErr s (some f.start) = _
    simp only [execDPortErr, answeredFlight_taken hf (.inr rfl)]
  · refine ⟨f, hf, ?_⟩
    show execDPortTimeout s = _
    simp [execDPortTimeout, portTimeoutDue, hf, ht]

/-! ### The end of an access or burst -/

theorem freePort_eq (s : State) : freePort s = { s with emission := ended s.emission.queue s.emission } := rfl

/-- At an end the arbiter decides by the table (R127). -/
theorem ended_decision (q : List Entry) (e : Emission) : (ended q e).decision = (ended q e).choice := rfl

theorem ended_queue (q : List Entry) (e : Emission) : (ended q e).queue = q := rfl

/-- A D-port that comes free has been freed, and the arbiter has decided (R127). -/
theorem freePort_decision (s : State) : (freePort s).emission.decision = (freePort s).emission.choice := rfl

theorem passFlight_decision (f : Flight) (d : Word) (s : State) (h : (passFlight f d s).emission.inFlight = none) :
    (passFlight f d s).emission.decision = (passFlight f d s).emission.choice := by
  unfold passFlight at *
  split
  · split
    · exact freePort_decision _
    · exact freePort_decision _
  · split
    · rename_i hk
      simp [hk, nextWrite] at h
    · split
      · exact freePort_decision _
      · split
        · exact freePort_decision _
        · exact freePort_decision _

theorem failFlight_decision (f : Flight) (s : State) (h : (failFlight f s).emission.inFlight = none) :
    (failFlight f s).emission.decision = (failFlight f s).emission.choice := by
  unfold failFlight at *
  split
  · split
    · exact freePort_decision _
    · exact freePort_decision _
  · split
    · rename_i hk
      simp [hk, restartBurst] at h
    · exact freePort_decision _
  · split
    · split
      · rename_i hx hk
        simp [hx, hk, restartBurst] at h
      · exact freePort_decision _
    · exact freePort_decision _

/-- After a failure the access in flight, if there is one, begins now: it is the restart (R137). -/
theorem failFlight_restarts (f g : Flight) (s : State) (h : (failFlight f s).emission.inFlight = some g) :
    g.start = s.timeBase := by
  unfold failFlight at h
  split at h
  · split at h <;> cases h
  · split at h <;> cases h
    rfl
  · split at h
    · split at h <;> cases h
      rfl
    · cases h

/-! ### FALLBACK entry (R152) -/

/-- Beside the mode and its cause, FALLBACK entry changes the sanders and asks for rewrites. -/
theorem fallbackEntry_change (k : FallbackCause) (s : State) :
    SanderChange (s.withControl { s.control with mode := .fallback, fallbackCause := k }) (fallbackEntry k s) :=
  (SanderChange.ofRewrite (requestAllRewrites_change _)).trans (sandersReact_change _)

/-- FALLBACK entry asks for a rewrite of every bogie within the bogie count. -/
theorem fallbackEntry_requests (k : FallbackCause) (s : State) (b : BogieNo) (h : s.shadow.counts b = true) :
    (fallbackEntry k s).emission.rewriteSet[b] = true := by
  let t := s.withControl { s.control with mode := .fallback, fallbackCause := k }
  have ha : t.active = true := by simp [t, State.active, State.withControl]
  have e : fallbackEntry k s = sandersReact (requestAllRewrites t) := rfl
  have hc : t.shadow.counts b = true := h
  have hm : (requestAllRewrites t).emission.rewriteSet[b] = true := requestAllRewrites_member t ha b hc
  rw [e]
  exact SanderChange.keeps (sandersReact_change (requestAllRewrites t)) b hm

end Sys2Proof.Machine
end

