-- ==== Sys2Proof/Laws/Issue.lean ====
section
/-! SUPPORT. What the stages of a demand burst's issue do, said once: the hill-start window, the sanders, the axles of
the bogie, and the gate, the release wait and the latch of stage 7 (R131). -/

namespace Sys2Proof.Machine

/-! ### The steepest gradient and the hill-start window (R94, R111) -/

theorem steepest_ge (sh : Shadow) (v : Vector Request 4) (g : Nat) :
    (g : Int) ≤ steepest sh v ↔ ∃ e : BogieNo, sh.counts e = true ∧ (g : Int) ≤ v[e].gradient.toInt := by
  have stepGe (x : Int) (e : BogieNo) : (g : Int) ≤ (if sh.counts e then max x v[e].gradient.toInt else x) ↔
      (g : Int) ≤ x ∨ (sh.counts e = true ∧ (g : Int) ≤ v[e].gradient.toInt) := by
    split
    · rename_i h; simp [h]
    · rename_i h; simp [h]
  unfold steepest
  rw [foldl_upTo4, stepGe, stepGe, stepGe, stepGe]
  have low : ¬ (g : Int) ≤ -128 := by omega
  have four (p : BogieNo → Prop) : (∃ e, p e) ↔ p 0 ∨ p 1 ∨ p 2 ∨ p 3 := by simp [Fin.exists_fin_succ]
  rw [four]
  tauto

theorem windowOpens_iff (s t : State) (b : BogieNo) (q : Request) (ha : t.active = true) (hh : t.hold.gate = s.hold.gate)
    (hs : t.sand = s.sand) (hd : t.shadow = s.shadow) :
    windowOpens t (s.allStanding.set b q) q = true ↔ HillStartOpens s b q := by
  have hg (e : BogieNo) : (s.allStanding.set b q)[e] = if e = b then q else s.standing e := by
    by_cases k : e = b
    · subst k; simp
    · have : b.val ≠ e.val := fun h => k (Fin.ext h.symm)
      simp [k, this, State.allStanding, State.standing]
  simp only [windowOpens, HillStartOpens, ha, hh, hs, hd, Bool.and_eq_true, decide_eq_true_eq, Bool.not_eq_true', steepest_ge,
    hg, true_and, and_assoc]


/-! ### The axle in a slot -/

theorem axleAt_code {sh : Shadow} {b : BogieNo} {slot : Slot} {n : AxleNo} (h : sh.axleAt b slot = some n) :
    sh.axleSlot n = slot.code := by
  have := List.find?_some h
  simp only [Bool.and_eq_true, beq_iff_eq] at this
  exact this.2

/-- No axle is in both slots of a bogie (R67). -/
theorem axleAt_slots {sh : Shadow} {b : BogieNo} {n : AxleNo} (h : sh.axleAt b .a = some n) :
    sh.axleAt b .b ≠ some n := by
  intro k
  have := (axleAt_code h).symm.trans (axleAt_code k)
  cases this

/-! ### Stages 5 and 6 -/

/-- The record of an axle of bogie b after its slot is composed. -/
theorem noteMotors_slot (b : BogieNo) (q : Request) (c : Commands) (s : State) (slot : Slot) (n : AxleNo)
    (h : s.shadow.axleAt b slot = some n) :
    (noteMotors b q c s).axles[n] =
      s.axles[n].noteEmission (if slot = .a then c.motorA else c.motorB) (rampComplete s b q slot n) := by
  cases slot
  · simp [noteMotors, h]
  · have : s.shadow.axleAt b .a ≠ some n := fun k => axleAt_slots k h
    simp [noteMotors, h, this]

theorem noteMotors_other (b : BogieNo) (q : Request) (c : Commands) (s : State) (n : AxleNo)
    (ha : s.shadow.axleAt b .a ≠ some n) (hb : s.shadow.axleAt b .b ≠ some n) :
    (noteMotors b q c s).axles[n] = s.axles[n] := by
  simp [noteMotors, ha, hb]

theorem rampComplete_iff (s : State) (b : BogieNo) (q : Request) (slot : Slot) (n : AxleNo) :
    rampComplete s b q slot n = true ↔ s.control.mode = .run ∧ s.hold.latch = .clear ∧ s.supervision[b].late = false ∧
      q.mode = .drive ∧ s.axles[n].state = .recover ∧ q.isolates slot = false ∧ q.traction slot ≤ ceiling s n := by
  have hc : s.axles[n].state = .recover → ceiling s n = recoverCeiling s n := fun h => by
    unfold ceiling
    rw [h]
  simp only [rampComplete, overridden, Bool.and_eq_true, decide_eq_true_eq, Bool.not_eq_true', Bool.or_eq_false_iff,
    decide_eq_false_iff_not, not_not]
  constructor
  · rintro ⟨⟨⟨⟨⟨h1, h2⟩, h3⟩, h4⟩, h5⟩, h6⟩
    exact ⟨h1, h2.1.2, h2.2, h3, h4, h5, by rw [hc h4]; exact h6⟩
  · rintro ⟨h1, h2, h3, h4, h5, h6, h7⟩
    exact ⟨⟨⟨⟨⟨h1, ⟨by rw [h1]; decide, h2⟩, h3⟩, h4⟩, h5⟩, h6⟩, by rw [← hc h5]; exact h7⟩

/-- A ceiling depends on the axle's record, the parameters and the time alone. -/
theorem ceiling_congr {s t : State} (n : AxleNo) (ha : t.axles = s.axles) (hs : t.shadow = s.shadow)
    (ht : t.timeBase = s.timeBase) : ceiling t n = ceiling s n := by
  unfold ceiling recoverCeiling
  rw [ha, hs, ht]

/-! ### Stage 7 -/

theorem allHeld_iff (s : State) : allHeld s = true ↔ ∀ e, s.shadow.counts e = true → s.hold.held[e] = true := by
  simp only [allHeld, all_upTo4, Bool.or_eq_true, Bool.not_eq_true']
  constructor
  · intro h e he
    rcases h e with k | k
    · rw [he] at k; cases k
    · exact k
  · intro h e
    cases he : s.shadow.counts e
    · exact .inl rfl
    · exact .inr (h e he)

theorem allStand_iff (s : State) (m : DemandMode) :
    s.allStand m = true ↔ ∀ e, s.shadow.counts e = true → (s.standing e).mode = m := by
  simp only [State.allStand, all_upTo4, Bool.or_eq_true, Bool.not_eq_true', decide_eq_true_eq]
  constructor
  · intro h e he
    rcases h e with k | k
    · rw [he] at k; cases k
    · exact k
  · intro h e
    cases he : s.shadow.counts e
    · exact .inl rfl
    · exact .inr (h e he)

theorem releaseWaitHolds_iff (s : State) (ha : s.active = true) : releaseWaitHolds s = true ↔
    s.hold.gate = .closed ∧ ∀ e, s.shadow.counts e = true → (s.standing e).mode = .drive := by
  simp [releaseWaitHolds, ha, allStand_iff]

/-- A bogie is in a set to which another is added when it is that one or was in it. -/
theorem mem_set (r : BogieSet) (b e : BogieNo) : (r.set b true)[e] = true ↔ e = b ∨ r[e] = true := by
  by_cases k : e = b
  · subst k; simp
  · have : b.val ≠ e.val := fun h => k (Fin.ext h.symm)
    simp [k, this]

/-- What a HOLD burst does to the hold unit and the sanders. -/
theorem holdBogie_hold (b : BogieNo) (s : State) :
    (holdBogie b s).hold =
      (if s.hold.latch = .clear then s.hold
      else if s.hold.latch = .settling ∧ s.hold.settled = true ∧
          ∀ e, s.shadow.counts e = true → e = b ∨ s.hold.held[e] = true then
        { s.hold with latch := .clear, held := BogieSet.none, settling := none, settled := false }
      else { s.hold with held := s.hold.held.set b true }) := by
  have hs := mem_set s.hold.held b
  unfold holdBogie
  split
  · rfl
  · simp only [Bool.and_eq_true, decide_eq_true_eq, allHeld_iff]
    show (if (s.hold.settled = true ∧ s.hold.latch = .settling) ∧
      (∀ e, s.shadow.counts e = true → (s.hold.held.set b true)[e] = true) then _ else _ : State).hold = _
    simp only [hs]
    by_cases h1 : s.hold.latch = .settling <;> by_cases h2 : s.hold.settled = true <;>
      by_cases h3 : ∀ e, s.shadow.counts e = true → e = b ∨ s.hold.held[e] = true
    all_goals simp only [h1, h2, true_and, and_true, false_and, and_false, if_false]
    all_goals first | rfl | skip
    · rw [if_pos h3, if_pos h3]
      unfold clearLatch
      rw [(sandersReact_change _).hold]
      rfl
    · rw [if_neg h3, if_neg h3]
      rfl

/-- A HOLD burst touches the hold unit, and through a latch that enters CLEAR the sanders. -/
theorem holdBogie_change (b : BogieNo) (s : State) :
    SanderChange (s.withHold (holdBogie b s).hold) (holdBogie b s) := by
  unfold holdBogie
  split
  · exact .refl s
  · simp only
    split
    · have e : (clearLatch (s.withHold { s.hold with held := s.hold.held.set b true })).hold =
          { s.hold with latch := .clear, held := BogieSet.none, settling := none, settled := false } := by
        unfold clearLatch
        rw [(sandersReact_change _).hold]
        rfl
      rw [e]
      exact sandersReact_change _
    · exact .refl _

/-- A HOLD burst of a bogie asks for no rewrite of it, its sander having reacted to the latch already. -/
theorem holdBogie_request (b : BogieNo) (s : State) (h : s.active = true)
    (hr : s.hold.latch ≠ .clear → ∀ stands : Bool, (s.shadow.counts b = false → stands = false) →
      (s.sand.sanders[b].react stands (s.shadow.counts b) .clear s.shadow.sandDwell s.timeBase).2 = false) :
    (holdBogie b s).emission.rewriteSet[b] = s.emission.rewriteSet[b] := by
  unfold holdBogie
  split
  · rfl
  · rename_i hl
    simp only
    split
    · unfold clearLatch sandersReact
      rw [(sandersEvent_bogie _ none b _ (by exact h)).2]
      unfold sanderReaction
      have := hr hl (causeStands (((s.withHold { s.hold with held := s.hold.held.set b true })).withHold
        { (s.withHold { s.hold with held := s.hold.held.set b true }).hold with
          latch := .clear, held := BogieSet.none, settling := none, settled := false }) s.allStanding b)
        (fun hc => by unfold causeStands; simp [hc])
      simp only [sand_withHold, hold_withHold, shadow_withHold, timeBase_withHold, emission_withHold] at this ⊢
      erw [this]
      simp
    · rfl

/-- Stage 7 of an issue (R96, R97, R99, R104). -/
theorem holdStage_facts (b : BogieNo) (q : Request) (before : Bool) (s : State) (h : s.active = true) :
    let t := holdStage b q before s
    (q.mode = .hold → t.hold.gate = .closed ∧ t.hold.blockedReported = false) ∧
    (q.mode ≠ .hold → t.hold.gate = (evaluateGate s).hold.gate ∧ t.hold.blockedReported = s.hold.blockedReported) ∧
    t.hold.direction = s.hold.direction ∧
    t.hold.releaseWait =
      (if t.hold.gate = .closed ∧ ∀ e, s.shadow.counts e = true → (s.standing e).mode = .drive then
        if before = true then
          (if q.mode ≠ .hold ∨ evaluateGate s = s then s.hold.releaseWait else none)
        else some s.timeBase
      else none) ∧
    (LatchConfirmed s b q → t.hold.latch = .clear ∧ t.hold.held = BogieSet.none ∧ t.hold.settling = none ∧
      t.hold.settled = false) ∧
    (¬ LatchConfirmed s b q → t.hold.latch = s.hold.latch ∧ t.hold.settling = s.hold.settling ∧
      t.hold.settled = s.hold.settled ∧
      t.hold.held = (if q.mode = .hold ∧ s.hold.latch ≠ .clear then s.hold.held.set b true else s.hold.held)) ∧
    t.sand.windowOpen = s.sand.windowOpen ∧ t.sand.windowTimer = s.sand.windowTimer ∧
    t.sand.usedSinceClosing = (if q.mode = .hold then false else s.sand.usedSinceClosing) ∧
    t.axles = s.axles ∧ t.feedback = s.feedback ∧ t.supervision = s.supervision ∧ t.notices = s.notices ∧
    t.intake = s.intake := by
  intro t
  have ht : t = updateReleaseWait before
      (if q.mode = .hold then holdBogie b (closeGate (evaluateGate s)) else evaluateGate s) := rfl
  rw [updateReleaseWait_eq] at ht
  by_cases hq : q.mode = .hold
  · rw [if_pos hq] at ht
    have hc := holdBogie_change b (closeGate (evaluateGate s))
    have hh := holdBogie_hold b (closeGate (evaluateGate s))
    have hconf : LatchConfirmed s b q ↔ s.hold.latch = .settling ∧ s.hold.settled = true ∧
        ∀ e, s.shadow.counts e = true → e = b ∨ s.hold.held[e] = true := by simp [LatchConfirmed, hq]
    rw [hconf]
    generalize hx : holdBogie b (closeGate (evaluateGate s)) = x at ht hc hh
    have hact : x.active = true := by
      rw [hc.active]
      rcases evaluateGate_eq s with e | ⟨-, e⟩ <;> rw [e] <;> exact h
    have hs : x.shadow = s.shadow ∧ x.supervision = s.supervision ∧ x.axles = s.axles ∧ x.feedback = s.feedback ∧
        x.notices = s.notices ∧ x.intake = s.intake ∧ x.timeBase = s.timeBase ∧ x.sand.windowOpen = s.sand.windowOpen ∧
        x.sand.windowTimer = s.sand.windowTimer ∧ x.sand.usedSinceClosing = false := by
      obtain ⟨v, r, f, hc, -, -⟩ := hc
      rw [hc]
      rcases evaluateGate_eq s with e | ⟨-, e⟩ <;> rw [e] <;> exact ⟨rfl, rfl, rfl, rfl, rfl, rfl, rfl, rfl, rfl, rfl⟩
    obtain ⟨s1, s2, s3, s4, s5, s6, s7, s8, s9, s10⟩ := hs
    have hrw := releaseWaitHolds_iff x hact
    unfold State.standing at hrw
    rw [s1, s2] at hrw
    have hg : (closeGate (evaluateGate s)).hold =
        { s.hold with
          gate := .closed
          blockedReported := false
          releaseWait := if evaluateGate s = s then s.hold.releaseWait else none } ∧
        (closeGate (evaluateGate s)).shadow = s.shadow := by
      rcases evaluateGate_eq s with e | ⟨hcl, e⟩
      · rw [if_pos e, e]
        exact ⟨rfl, rfl⟩
      · have : evaluateGate s ≠ s := by
          rw [e]
          intro hn
          have := congrArg (fun z : State => z.hold.gate) hn
          simp [hcl] at this
        rw [if_neg this, e]
        exact ⟨rfl, rfl⟩
    rw [hg.1, hg.2] at hh
    have hxg : x.hold.gate = .closed ∧ x.hold.blockedReported = false ∧ x.hold.direction = s.hold.direction ∧
        x.hold.releaseWait = (if evaluateGate s = s then s.hold.releaseWait else none) := by
      rw [hh]
      generalize (if evaluateGate s = s then s.hold.releaseWait else none) = w0
      split
      · exact ⟨rfl, rfl, rfl, rfl⟩
      · split <;> exact ⟨rfl, rfl, rfl, rfl⟩
    obtain ⟨g1, g2, g3, g4⟩ := hxg
    rw [ht]
    refine ⟨fun _ => ⟨g1, g2⟩, fun k => absurd hq k, g3, ?_, ?_, ?_, s8, s9, ?_, s3, s4, s2, s5, s6⟩
    · show (if releaseWaitHolds x = true then _ else _) = _
      simp only [hrw, hold_withHold, g1, g4, s7, State.standing, hq, ne_eq, not_true_eq_false, false_or]
    · intro k
      show x.hold.latch = _ ∧ x.hold.held = _ ∧ x.hold.settling = _ ∧ x.hold.settled = _
      rw [hh]
      have : ¬ s.hold.latch = .clear := by rw [k.1]; decide
      simp only [if_neg this, if_pos k, and_self]
    · intro k
      show x.hold.latch = _ ∧ x.hold.settling = _ ∧ x.hold.settled = _ ∧ x.hold.held = _
      rw [hh]
      by_cases hl : s.hold.latch = .clear
      · simp [hl, hq]
      · simp only [if_neg hl, if_neg k]
        simp [hl, hq]
    · show x.sand.usedSinceClosing = _
      rw [s10, if_pos hq]
  · rw [if_neg hq] at ht
    have hconf : ¬ LatchConfirmed s b q := fun k => hq k.1
    have hact : (evaluateGate s).active = true := by
      rcases evaluateGate_eq s with e | ⟨-, e⟩ <;> rw [e] <;> exact h
    have hrw := releaseWaitHolds_iff (evaluateGate s) hact
    have hg : (evaluateGate s) = s.withHold (evaluateGate s).hold ∧ (evaluateGate s).hold.direction = s.hold.direction ∧
        (evaluateGate s).hold.blockedReported = s.hold.blockedReported ∧ (evaluateGate s).hold.latch = s.hold.latch ∧
        (evaluateGate s).hold.held = s.hold.held ∧ (evaluateGate s).hold.settling = s.hold.settling ∧
        (evaluateGate s).hold.settled = s.hold.settled ∧
        ((evaluateGate s).hold.gate = .closed → (evaluateGate s).hold.releaseWait = s.hold.releaseWait) := by
      rcases evaluateGate_eq s with e | ⟨-, e⟩ <;> rw [e]
      · exact ⟨rfl, rfl, rfl, rfl, rfl, rfl, rfl, fun _ => rfl⟩
      · exact ⟨rfl, rfl, rfl, rfl, rfl, rfl, rfl, fun k => by simp at k⟩
    generalize evaluateGate s = x at ht hrw hg
    obtain ⟨g0, g1, g2, g3, g4, g5, g6, g7⟩ := hg
    have hsh : x.shadow = s.shadow ∧ x.supervision = s.supervision ∧ x.timeBase = s.timeBase := by
      rw [g0]
      exact ⟨rfl, rfl, rfl⟩
    unfold State.standing at hrw
    rw [hsh.1, hsh.2.1] at hrw
    rw [ht]
    refine ⟨fun k => absurd k hq, fun _ => ⟨rfl, g2⟩, g1, ?_, fun k => absurd k hconf,
      fun _ => ⟨g3, g5, g6, ?_⟩, ?_, ?_, ?_, ?_, ?_, hsh.2.1, ?_, ?_⟩
    · show (if releaseWaitHolds x = true then _ else _) = _
      simp only [hrw, hold_withHold, State.standing, hq, ne_eq, not_false_eq_true, true_or, if_true, hsh.2.2]
      by_cases hgc : x.hold.gate = .closed
      · rw [g7 hgc]
      · simp [hgc]
    · show x.hold.held = _
      rw [g4]
      simp [hq]
    all_goals
      rw [g0]
      first
      | rfl
      | simp [hq]


theorem holdStage_request (b : BogieNo) (q : Request) (before : Bool) (s : State) (h : s.active = true)
    (hr : s.hold.latch ≠ .clear → ∀ stands : Bool, (s.shadow.counts b = false → stands = false) →
      (s.sand.sanders[b].react stands (s.shadow.counts b) .clear s.shadow.sandDwell s.timeBase).2 = false) :
    (holdStage b q before s).emission.rewriteSet[b] = s.emission.rewriteSet[b] := by
  have ht : holdStage b q before s = updateReleaseWait before
      (if q.mode = .hold then holdBogie b (closeGate (evaluateGate s)) else evaluateGate s) := rfl
  rw [ht, updateReleaseWait_eq]
  show (if q.mode = .hold then holdBogie b (closeGate (evaluateGate s)) else evaluateGate s).emission.rewriteSet[b] = _
  split
  · rw [holdBogie_request]
    · rcases evaluateGate_eq s with e | ⟨-, e⟩ <;> rw [e] <;> rfl
    · rcases evaluateGate_eq s with e | ⟨-, e⟩ <;> rw [e] <;> exact h
    · rcases evaluateGate_eq s with e | ⟨-, e⟩ <;> rw [e] <;> exact hr
  · rcases evaluateGate_eq s with e | ⟨-, e⟩ <;> (rw [e]; try rfl)

/-- Stages 1 to 3 of an issue outside SETUP (R100, R110, R111, R128, R129). -/
theorem composingState_eq (b : BogieNo) (q : Request) (rewrite : Bool) (s : State) (h : s.active = true) :
    ∃ w : State,
      w =
        { s with
          hold := { s.hold with direction := q.direction }
          sand := w.sand
          emission :=
            { s.emission with
              rewriteSet := s.emission.rewriteSet.set b false
              streak := if rewrite then s.emission.streak + 1 else 0 } } ∧
      (HillStartOpens s b q →
        w.sand = { s.sand with windowOpen := true, windowTimer := some s.timeBase, usedSinceClosing := true }) ∧
      (¬ HillStartOpens s b q → w.sand = s.sand) ∧
      composingState b q rewrite s = sandersEvent (s.allStanding.set b q) (some b) w := by
  let s1 := (leaveRewriteSet b rewrite s).withHold { s.hold with direction := q.direction }
  have hw := windowOpens_iff s s1 b q h rfl rfl rfl
  have hcs : composingState b q rewrite s =
      sandersEvent (s.allStanding.set b q) (some b) (openWindow (s.allStanding.set b q) q s1) := by
    unfold composingState
    rw [if_pos h]
    rfl
  refine ⟨openWindow (s.allStanding.set b q) q s1, ?_, fun k => ?_, fun k => ?_, hcs⟩
  · unfold openWindow
    split <;> rfl
  · unfold openWindow
    rw [if_pos (hw.2 k)]
    rfl
  · unfold openWindow
    rw [if_neg (fun hh => k (hw.1 hh))]
    rfl

/-- What the stages of an issue make of the state (R131). -/
theorem issueDemand_eq (b : BogieNo) (q : Request) (rewrite : Bool) (of : BurstOf) (a : Address) (s : State) :
    issueDemand b q rewrite of a s =
      launch (.burst of a
          (emittedRecord (composingState b q rewrite s) b q (compose (composingState b q rewrite s) b q)) 0
          (composingState b q rewrite s).timeBase)
        (settleIssue b q (compose (composingState b q rewrite s) b q) (releaseWaitHolds s)
          (composingState b q rewrite s)) := rfl

theorem exec_demandIssue {s : State} {c : Instr} {b : BogieNo} {q : Request} {rewrite : Bool} {of : BurstOf}
    {a : Address} (h : DemandIssue s c b q rewrite of a) : exec c s = done (issueDemand b q rewrite of a s) := by
  rcases h with ⟨-, ⟨rfl, hi, rfl, rfl, rfl, rfl⟩ | ⟨rfl, hi, rfl, rfl, x, r, hx, hk, rfl, rfl, rfl⟩⟩
  · show execRewriteIssue s = _
    simp only [execRewriteIssue, hi]
    rfl
  · show execDemandCommitIssue s = _
    simp only [execDemandCommitIssue, issuingHead, hi, if_true, hx, hk]
    rfl

end Sys2Proof.Machine
end

