-- ==== Sys2Proof/Laws/Sample.lean ====
section
/-! SUPPORT. A stored sample: that its evaluation depends on the blocks it reads alone, and what it leaves of Vref, the axle,
the hold unit, the notices and the rewrite set (R31, R46, R101 to R103). -/

namespace Sys2Proof.Machine

/-! ### What an evaluation reads -/

/-- The second state has the first's time, mode, parameters, axles, reference, feedback, hold unit and supervision. -/
def SameInputs (s t : State) : Prop :=
  ∃ b g sd e nt o l rc pd, t =
    { s with
      bus := b
      staging := g
      sand := sd
      emission := e
      notices := nt
      overlay := o
      lines := l
      races := rc
      pending := pd }

theorem SameInputs.refl (s : State) : SameInputs s s := ⟨_, _, _, _, _, _, _, _, _, rfl⟩

section
variable {s t : State} (h : SameInputs s t)
include h

theorem SameInputs.axles : t.axles = s.axles := by obtain ⟨_, _, _, _, _, _, _, _, _, rfl⟩ := h; rfl
theorem SameInputs.shadow : t.shadow = s.shadow := by obtain ⟨_, _, _, _, _, _, _, _, _, rfl⟩ := h; rfl
theorem SameInputs.timeBase : t.timeBase = s.timeBase := by obtain ⟨_, _, _, _, _, _, _, _, _, rfl⟩ := h; rfl
theorem SameInputs.active : t.active = s.active := by obtain ⟨_, _, _, _, _, _, _, _, _, rfl⟩ := h; rfl
theorem SameInputs.hold : t.hold = s.hold := by obtain ⟨_, _, _, _, _, _, _, _, _, rfl⟩ := h; rfl
theorem SameInputs.intake : t.intake = s.intake := by obtain ⟨_, _, _, _, _, _, _, _, _, rfl⟩ := h; rfl
theorem SameInputs.supervision : t.supervision = s.supervision := by
  obtain ⟨_, _, _, _, _, _, _, _, _, rfl⟩ := h; rfl
theorem SameInputs.vref : t.vref = s.vref := by obtain ⟨_, _, _, _, _, _, _, _, _, rfl⟩ := h; rfl

theorem SameInputs.setAxle (n : AxleNo) (x : Axle) :
    SameInputs (Machine.setAxle n x s) (Machine.setAxle n x t) := by
  obtain ⟨_, _, _, _, _, _, _, _, _, rfl⟩ := h
  exact ⟨_, _, _, _, _, _, _, _, _, rfl⟩

end

/-! ### Notices of an entry into SLIP -/

theorem noted_congr (k : NoticeKind) (i : Nat) (now : Word) (t t' : Vector Notice 15) (j : Fin 15) (h : t[j] = t'[j]) :
    (noted k i now t)[j] = (noted k i now t')[j] := by
  by_cases e : j = k.slot
  · subst e
    rw [noted_same, noted_same, h]
  · rw [noted_other _ _ _ _ _ e, noted_other _ _ _ _ _ e, h]

theorem enterSlip_notices (n : AxleNo) (s : State) :
    (enterSlip n s).notices =
      if persistentTest s.shadow.persistentWindow (joinEntries s.axles[n].slipEntries s.timeBase) then
        noted .persistentSlip n.val s.timeBase (noted .slipEntry n.val s.timeBase s.notices)
      else noted .slipEntry n.val s.timeBase s.notices := by
  unfold enterSlip
  simp only [sandersReact_notices, requestRewrite_notices]
  by_cases h : persistentTest s.shadow.persistentWindow (joinEntries s.axles[n].slipEntries s.timeBase) = true
  · rw [if_pos h, if_pos (by exact h)]
    rfl
  · rw [if_neg h, if_neg (by exact h)]
    rfl

theorem enterSlip_supervision (n : AxleNo) (s : State) : (enterSlip n s).supervision = s.supervision := by
  have react (u : State) : (sandersReact u).supervision = u.supervision := by
    obtain ⟨_, _, _, h, -⟩ := sandersReact_change u
    rw [h]
  have request (b : BogieNo) (u : State) : (requestRewrite b u).supervision = u.supervision := by
    obtain ⟨_, _, h, -⟩ := requestRewrite_change b u
    rw [h]
  unfold enterSlip
  simp only [react, request]
  split <;> rfl

theorem enterSlip_congr (n : AxleNo) {s t : State} (h : SameInputs s t) :
    (enterSlip n t).axles = (enterSlip n s).axles ∧
      ∀ j : Fin 15, t.notices[j] = s.notices[j] → (enterSlip n t).notices[j] = (enterSlip n s).notices[j] := by
  obtain ⟨_, _, _, _, nt, _, _, _, _, rfl⟩ := h
  refine ⟨by rw [enterSlip_axles, enterSlip_axles]; rfl, fun j hj => ?_⟩
  rw [enterSlip_notices, enterSlip_notices]
  show (if persistentTest s.shadow.persistentWindow (joinEntries s.axles[n].slipEntries s.timeBase) = true then
      noted .persistentSlip n.val s.timeBase (noted .slipEntry n.val s.timeBase nt)
    else noted .slipEntry n.val s.timeBase nt)[j] = _
  split
  · exact noted_congr _ _ _ _ _ _ (noted_congr _ _ _ _ _ _ hj)
  · exact noted_congr _ _ _ _ _ _ hj

/-! ### Transitions -/

/-- A transition is an entry into SLIP, a new record for the axle, one that the sanders hear of, or nothing; and the same
one in two states with the same inputs (R52 to R59). -/
theorem transition_plan (n : AxleNo) {s t : State} (h : SameInputs s t) :
    (transition n s = enterSlip n s ∧ transition n t = enterSlip n t) ∨
    (∃ x : Axle, x.state ≠ .slip ∧ transition n s = setAxle n x s ∧ transition n t = setAxle n x t) ∨
    (∃ x : Axle, x.state ≠ .slip ∧ transition n s = sandersReact (setAxle n x s) ∧
      transition n t = sandersReact (setAxle n x t)) ∨
    (transition n s = s ∧ transition n t = t) := by
  have e1 : slipCondition t n = slipCondition s n := by obtain ⟨_, _, _, _, _, _, _, _, _, rfl⟩ := h; rfl
  have e2 : creepCondition t n = creepCondition s n := by obtain ⟨_, _, _, _, _, _, _, _, _, rfl⟩ := h; rfl
  have e3 : slipEnds t n = slipEnds s n := by obtain ⟨_, _, _, _, _, _, _, _, _, rfl⟩ := h; rfl
  have e4 : axleMagnitude t n = axleMagnitude s n := by obtain ⟨_, _, _, _, _, _, _, _, _, rfl⟩ := h; rfl
  have e5 : creepThreshold t = creepThreshold s := by obtain ⟨_, _, _, _, _, _, _, _, _, rfl⟩ := h; rfl
  unfold transition
  simp only [e1, e2, e3, e4, e5, h.axles, h.shadow, h.timeBase]
  cases hs : s.axles[n].state <;> simp only
  · by_cases c : slipCondition s n = true
    · exact .inl ⟨if_pos c, if_pos c⟩
    · rw [if_neg c, if_neg c]
      by_cases d : creepCondition s n = true
      · rw [if_pos d, if_pos d]
        exact .inr (.inl ⟨_, by simp, rfl, rfl⟩)
      · rw [if_neg d, if_neg d]
        exact .inr (.inr (.inr ⟨rfl, rfl⟩))
  · by_cases c : slipCondition s n = true
    · exact .inl ⟨if_pos c, if_pos c⟩
    · rw [if_neg c, if_neg c]
      by_cases d : axleMagnitude s n < creepThreshold s - s.shadow.hysteresis
      · rw [if_pos d, if_pos d]
        exact .inr (.inl ⟨_, by simp, rfl, rfl⟩)
      · rw [if_neg d, if_neg d]
        exact .inr (.inr (.inr ⟨rfl, rfl⟩))
  · by_cases c : slipEnds s n = true
    · rw [if_pos c, if_pos c]
      exact .inr (.inr (.inl ⟨_, by simp [Axle.enterRecover], rfl, rfl⟩))
    · rw [if_neg c, if_neg c]
      exact .inr (.inr (.inr ⟨rfl, rfl⟩))
  · by_cases c : slipCondition s n = true
    · exact .inl ⟨if_pos c, if_pos c⟩
    · rw [if_neg c, if_neg c]
      exact .inr (.inr (.inr ⟨rfl, rfl⟩))
  · exact .inr (.inl ⟨_, by simp [Axle.enterRecover], rfl, rfl⟩)

theorem transition_congr (n : AxleNo) {s t : State} (h : SameInputs s t) :
    (transition n t).axles = (transition n s).axles ∧
      ∀ j : Fin 15, t.notices[j] = s.notices[j] → (transition n t).notices[j] = (transition n s).notices[j] := by
  have es (x : Axle) : (setAxle n x t).axles = (setAxle n x s).axles := by
    show t.axles.set n x = s.axles.set n x
    rw [h.axles]
  rcases transition_plan n h with ⟨h1, h2⟩ | ⟨x, -, h1, h2⟩ | ⟨x, -, h1, h2⟩ | ⟨h1, h2⟩
  · rw [h1, h2]
    exact enterSlip_congr n h
  · rw [h1, h2]
    exact ⟨es x, fun _ hj => hj⟩
  · rw [h1, h2, sandersReact_axles, sandersReact_axles, sandersReact_notices, sandersReact_notices]
    exact ⟨es x, fun _ hj => hj⟩
  · rw [h1, h2]
    exact ⟨h.axles, fun _ hj => hj⟩

/-- A transition raises SLIP_ENTRY and PERSISTENT_SLIP alone. -/
theorem transition_notices (n : AxleNo) (s : State) (j : Fin 15) (h1 : j ≠ NoticeKind.slipEntry.slot)
    (h2 : j ≠ NoticeKind.persistentSlip.slot) : (transition n s).notices[j] = s.notices[j] := by
  rcases transition_plan n (.refl s) with ⟨e, -⟩ | ⟨x, -, e, -⟩ | ⟨x, -, e, -⟩ | ⟨e, -⟩
  · rw [e, enterSlip_notices]
    split
    · rw [noted_other _ _ _ _ _ h2, noted_other _ _ _ _ _ h1]
    · rw [noted_other _ _ _ _ _ h1]
  · rw [e]
    rfl
  · rw [e, sandersReact_notices]
    rfl
  · rw [e]

theorem transition_supervision (n : AxleNo) (s : State) : (transition n s).supervision = s.supervision := by
  rcases transition_plan n (.refl s) with ⟨e, -⟩ | ⟨x, -, e, -⟩ | ⟨x, -, e, -⟩ | ⟨e, -⟩
  · rw [e, enterSlip_supervision]
  · rw [e]
    rfl
  · rw [e]
    obtain ⟨_, _, _, h, -⟩ := sandersReact_change (setAxle n x s)
    rw [h]
    rfl
  · rw [e]

/-- An entry into SLIP asks for a rewrite of the axle's bogie (R54). -/
theorem transition_request (n : AxleNo) (s : State) (ha : s.active = true) (h0 : s.axles[n].state ≠ .slip)
    (h1 : (transition n s).axles[n].state = .slip) :
    (transition n s).emission.rewriteSet[s.shadow.axleBogie n] = true := by
  have new (x : Axle) : (setAxle n x s).axles[n] = x := set_same _ _ _
  rcases transition_plan n (.refl s) with ⟨e, -⟩ | ⟨x, hx, e, -⟩ | ⟨x, hx, e, -⟩ | ⟨e, -⟩
  · rw [e]
    unfold enterSlip
    simp only
    refine (sandersReact_change _).keeps _ ?_
    split
    · exact requestRewrite_member _ _ ha
    · exact requestRewrite_member _ _ ha
  · rw [e, new] at h1
    exact absurd h1 hx
  · rw [e, sandersReact_axles, new] at h1
    exact absurd h1 hx
  · rw [e] at h1
    exact absurd h1 h0

/-! ### The evaluation of Vref -/

theorem compareLatch_congr {s t : State} (h : SameInputs s t) : (compareLatch t).hold = (compareLatch s).hold := by
  by_cases ha : s.active = true
  · have k := compareLatch_hold s ha
    have k' := compareLatch_hold t (h.active.trans ha)
    rw [h.hold, h.vref, h.shadow, h.timeBase] at k'
    cases hl : s.hold.latch
    · rw [k.2.2.2.2 hl, k'.2.2.2.2 hl]
    · rcases Nat.lt_or_ge s.vref s.shadow.standstillSpeed with hv | hv
      · rw [k.1 hl hv, k'.1 hl hv]
      · rw [k.2.1 hl hv, k'.2.1 hl hv]
    · rcases Nat.lt_or_ge s.vref s.shadow.standstillSpeed with hv | hv
      · rw [k.2.2.2.1 hl hv, k'.2.2.2.1 hl hv]
      · rw [k.2.2.1 hl hv, k'.2.2.1 hl hv]
  · unfold compareLatch
    rw [if_neg ha, if_neg (by rw [h.active]; exact ha), h.hold]

/-- An evaluation of Vref moves Vref and the latch, and through the sanders no more than they change. -/
theorem evaluateVref_change (n : AxleNo) (s : State) :
    ∃ i h, SanderChange ((s.withIntake i).withHold h) (evaluateVref n s) ∧
      i = (match candidateSpeed s n with
        | some c => s.intake.toward s.shadow.slope c
        | none => s.intake) ∧
      h = (compareLatch (s.withIntake i)).hold := by
  refine ⟨_, _, ?_, rfl, rfl⟩
  have hc (u : State) : compareLatch u = u.withHold (compareLatch u).hold := by
    unfold compareLatch
    repeat' split
    all_goals rfl
  unfold evaluateVref
  simp only
  cases candidateSpeed s n with
  | none => exact hc s ▸ sandersReact_change (compareLatch s)
  | some c =>
    exact hc (s.withIntake (s.intake.toward s.shadow.slope c)) ▸
      sandersReact_change (compareLatch (s.withIntake (s.intake.toward s.shadow.slope c)))

theorem evaluateVref_congr (n : AxleNo) {s t : State} (h : SameInputs s t) :
    SameInputs (evaluateVref n s) (evaluateVref n t) := by
  obtain ⟨i, k, ⟨_, _, _, hs, -⟩, rfl, rfl⟩ := evaluateVref_change n s
  obtain ⟨i', k', ⟨_, _, _, ht, -⟩, rfl, rfl⟩ := evaluateVref_change n t
  have e :
      (compareLatch (t.withIntake
        (match candidateSpeed t n with
        | some c => t.intake.toward t.shadow.slope c
        | none => t.intake))).hold =
      (compareLatch (s.withIntake
        (match candidateSpeed s n with
        | some c => s.intake.toward s.shadow.slope c
        | none => s.intake))).hold := by
    apply compareLatch_congr
    obtain ⟨_, _, _, _, _, _, _, _, _, rfl⟩ := h
    exact ⟨_, _, _, _, _, _, _, _, _, rfl⟩
  rw [ht, e, hs]
  obtain ⟨_, _, _, _, _, _, _, _, _, rfl⟩ := h
  exact ⟨_, _, _, _, _, _, _, _, _, rfl⟩

/-! ### A latching -/

/-- What a latching leaves of the hold unit depends on the hold unit, the standing requests and the time alone. -/
theorem latchRollback_hold_congr (n : AxleNo) {s t : State} (h1 : t.hold = s.hold) (h2 : t.supervision = s.supervision)
    (h3 : t.shadow = s.shadow) (h4 : t.timeBase = s.timeBase) (h5 : t.active = s.active) :
    (latchRollback n t).hold = (latchRollback n s).hold := by
  have wait (u : State) : (latchRollback n u).hold =
      { u.hold with
        gate := .closed
        releaseWait :=
          if (u.active && upTo4.all fun b => !u.shadow.counts b || decide (u.supervision[b].standing.mode = .drive)) = true
          then some u.timeBase else none
        blockedReported := false
        latch := .latched
        held := BogieSet.none
        settling := none
        settled := false } := by
    unfold latchRollback
    simp only [sandersReact_hold, requestAllRewrites_hold, updateReleaseWait_eq]
    simp only [releaseWaitHolds, closeGate, raise, State.allStand, State.standing, hold_withHold, hold_withSand,
      hold_withNotices, decide_true, Bool.and_true, Bool.false_eq_true, if_false]
    rfl
  rw [wait, wait, h1, h2, h3, h4, h5]

theorem latchRollback_notice (n : AxleNo) (s : State) (j : Fin 15) (h : j ≠ NoticeKind.rollback.slot) :
    (latchRollback n s).notices[j] = s.notices[j] := by
  have e := (latchRollback_facts n s).2.2.2
  simp only [e]
  exact noted_other _ _ _ _ _ h

theorem latchRollback_raises (n : AxleNo) (s : State) :
    (latchRollback n s).notices[NoticeKind.rollback.slot] =
      s.notices[NoticeKind.rollback.slot].raised (BitVec.ofNat 8 n.val) s.timeBase := by
  have e := (latchRollback_facts n s).2.2.2
  simp only [e]
  exact noted_same _ _ _ _

/-- A latching asks for a rewrite of every bogie within the bogie count (R102). -/
theorem latchRollback_requests (n : AxleNo) (s : State) (h : s.active = true) (b : BogieNo)
    (hb : s.shadow.counts b = true) : (latchRollback n s).emission.rewriteSet[b] = true := by
  let s1 := s.withHold { s.hold with latch := .latched, held := BogieSet.none, settling := none, settled := false }
  let s3 := updateReleaseWait false (closeGate (raise .rollback n.val s1))
  have hm : MiddleChange s1 s3 :=
    ((raise_middle _ _ _).trans (closeGate_middle _)).trans (updateReleaseWait_middle _ _)
  have ha : s3.active = true := hm.active.trans h
  have hc : s3.shadow.counts b = true := by
    rw [hm.shadow]
    exact hb
  have e : latchRollback n s = sandersReact (requestAllRewrites s3) := rfl
  clear_value s3
  have hr : (requestAllRewrites s3).emission.rewriteSet[b] = true := requestAllRewrites_member s3 ha b hc
  simp only [e]
  exact (sandersReact_change (requestAllRewrites s3)).keeps b hr

/-! ### A stored sample -/

/-- The axle with its acceleration and slip at the present Vref (R46). -/
def evaluated (n : AxleNo) (speed : Nat) (s : State) : State :=
  setAxle n
    { s.axles[n] with
      acceleration := estimate s.shadow s.axles[n]
      slip := (speed : Int) - (s.vref : Int) } s

/-- The state in which a stored sample makes its transition (R31, R46). -/
def sampled (n : AxleNo) (speed : Nat) (quality : Quality) (s : State) : State :=
  evaluated n speed (evaluateVref n (setAxle n (s.axles[n].store speed quality s.timeBase) s))

theorem storeSample_eq (n : AxleNo) (speed : Nat) (quality : Quality) (sensed : Option Direction) (s : State) :
    storeSample n speed quality sensed s =
      if rollbackDetected (transition n (sampled n speed quality s)) quality sensed speed then
        latchRollback n (transition n (sampled n speed quality s))
      else transition n (sampled n speed quality s) := rfl

theorem sampled_eq (n : AxleNo) (speed : Nat) (quality : Quality) (s v : State) (stored : Axle)
    (hs : stored = s.axles[n].store speed quality s.timeBase)
    (hv : v = evaluateVref n { s with axles := s.axles.set n stored }) :
    sampled n speed quality s =
      { v with
        axles := v.axles.set n
          { stored with
            acceleration := estimate s.shadow stored
            slip := (speed : Int) - (v.vref : Int) } } := by
  have e : sampled n speed quality s = evaluated n speed v := by
    rw [hv, hs]
    rfl
  have h1 : v.shadow = s.shadow := by
    rw [hv]
    exact (evaluateVref_middle n _).shadow
  have h2 : v.axles[n] = stored := by
    have k : v.axles = s.axles.set n stored := by
      rw [hv]
      exact (evaluateVref_keeps n _).1
    rw [k]
    exact set_same _ _ _
  rw [e, evaluated, h2, ← h1]
  rfl

theorem evaluated_congr (n : AxleNo) (speed : Nat) {s t : State} (h : SameInputs s t) :
    SameInputs (evaluated n speed s) (evaluated n speed t) := by
  unfold evaluated
  rw [h.axles, h.shadow, h.vref]
  exact h.setAxle n _

theorem sampled_congr (n : AxleNo) (speed : Nat) (quality : Quality) {s t : State} (h : SameInputs s t) :
    SameInputs (sampled n speed quality s) (sampled n speed quality t) := by
  unfold sampled
  rw [h.axles, h.timeBase]
  exact evaluated_congr n speed (evaluateVref_congr n (h.setAxle n _))

/-- What a stored sample leaves, by the state in which it makes its transition. -/
theorem storeSample_facts (n : AxleNo) (speed : Nat) (quality : Quality) (sensed : Option Direction) (s u : State)
    (hu : u = sampled n speed quality s) (ha : u.active = true) :
    let t := storeSample n speed quality sensed s
    let detected := quality = .good ∧ sensed = some u.hold.direction.opposite ∧ u.shadow.rollbackSpeed ≤ speed ∧
      u.hold.latch ≠ .latched
    t.axles = (transition n u).axles ∧ t.intake = u.intake ∧
    (∀ j : Fin 15, j ≠ NoticeKind.rollback.slot → t.notices[j] = (transition n u).notices[j]) ∧
    (u.axles[n].state ≠ .slip → t.axles[n].state = .slip → t.emission.rewriteSet[u.shadow.axleBogie n] = true) ∧
    (detected → t.hold = (latchRollback n u).hold ∧ t.hold.latch = .latched ∧
      t.notices[NoticeKind.rollback.slot] =
        u.notices[NoticeKind.rollback.slot].raised (BitVec.ofNat 8 n.val) u.timeBase ∧
      ∀ b, u.shadow.counts b = true → t.emission.rewriteSet[b] = true) ∧
    (¬ detected → t.hold = u.hold ∧ t.notices[NoticeKind.rollback.slot] = u.notices[NoticeKind.rollback.slot]) ∧
    (detected → t = latchRollback n (transition n u)) ∧ (¬ detected → t = transition n u) := by
  intro t detected
  have ht : t = if rollbackDetected (transition n u) quality sensed speed then latchRollback n (transition n u)
      else transition n u := by
    show storeSample n speed quality sensed s = _
    rw [storeSample_eq, ← hu]
  obtain ⟨-, -, -, kIntake, kHold⟩ := transition_axles n u
  have m := transition_middle n u
  have supervised := transition_supervision n u
  have other := transition_notices n u
  have request := transition_request n u ha
  have hdet : rollbackDetected (transition n u) quality sensed speed = true ↔ detected := by
    unfold rollbackDetected
    rw [m.active, ha, kHold, m.shadow]
    simp only [Bool.and_eq_true, decide_eq_true_eq, true_and, and_assoc, detected, ne_eq]
  clear_value t
  generalize transition n u = w at *
  have keep : t.axles = w.axles ∧ t.intake = w.intake ∧
      (∀ j : Fin 15, j ≠ NoticeKind.rollback.slot → t.notices[j] = w.notices[j]) ∧
      (∀ b : BogieNo, w.emission.rewriteSet[b] = true → t.emission.rewriteSet[b] = true) := by
    rw [ht]
    split
    · obtain ⟨f1, f2, -, -⟩ := latchRollback_facts n w
      exact ⟨f1, f2, fun j hj => latchRollback_notice n w j hj, fun b hb => (latchRollback_middle n w).keeps b hb⟩
    · exact ⟨rfl, rfl, fun _ _ => rfl, fun _ hb => hb⟩
  obtain ⟨k1, k2, k3, k4⟩ := keep
  refine ⟨k1, k2.trans kIntake, k3, fun h0 h1 => k4 _ (request h0 (by rw [← k1]; exact h1)), fun hd => ?_, fun hd => ?_,
    fun hd => by rw [ht, if_pos (hdet.2 hd)], fun hd => by rw [ht, if_neg (fun z => hd (hdet.1 z))]⟩
  · rw [ht, if_pos (hdet.2 hd)]
    obtain ⟨-, -, latched, -⟩ := latchRollback_facts n w
    refine ⟨latchRollback_hold_congr n kHold supervised m.shadow m.timeBase m.active, latched, ?_, fun b hb => ?_⟩
    · exact (latchRollback_raises n w).trans
        (by rw [other NoticeKind.rollback.slot (by decide) (by decide), m.timeBase])
    · exact latchRollback_requests n w (m.active.trans ha) b (by rw [m.shadow]; exact hb)
  · rw [ht, if_neg (fun z => hd (hdet.1 z))]
    exact ⟨kHold, other NoticeKind.rollback.slot (by decide) (by decide)⟩

end Sys2Proof.Machine
end

