-- ==== Sys2Proof/Laws/SampleSand.lean ====
section
/-! SUPPORT. What a stored sample leaves of the sanders and the rewrite set depends on its inputs, the sander unit and
the rewrite set alone (R110). -/

namespace Sys2Proof.Machine


/-- Two states of the same inputs, with the same sander unit and rewrite set. -/
def SameSand (s t : State) : Prop :=
  SameInputs s t ∧ t.sand = s.sand ∧ t.emission.rewriteSet = s.emission.rewriteSet

theorem SameSand.refl (s : State) : SameSand s s := ⟨.refl s, rfl, rfl⟩

section
variable {s t : State} (h : SameSand s t)
include h

theorem SameSand.setAxle (n : AxleNo) (x : Axle) : SameSand (Machine.setAxle n x s) (Machine.setAxle n x t) :=
  ⟨h.1.setAxle n x, h.2⟩

theorem SameSand.raise (k : NoticeKind) (i : Nat) : SameSand (Machine.raise k i s) (Machine.raise k i t) := by
  obtain ⟨⟨_, _, _, _, _, _, _, _, _, rfl⟩, h2⟩ := h
  exact ⟨⟨_, _, _, _, _, _, _, _, _, rfl⟩, h2⟩

theorem SameSand.withHold (x : Hold) : SameSand (s.withHold x) (t.withHold x) := by
  obtain ⟨⟨_, _, _, _, _, _, _, _, _, rfl⟩, h2⟩ := h
  exact ⟨⟨_, _, _, _, _, _, _, _, _, rfl⟩, h2⟩

theorem SameSand.withIntake (x : Intake) : SameSand (s.withIntake x) (t.withIntake x) := by
  obtain ⟨⟨_, _, _, _, _, _, _, _, _, rfl⟩, h2⟩ := h
  exact ⟨⟨_, _, _, _, _, _, _, _, _, rfl⟩, h2⟩

theorem SameSand.requestRewrite (b : BogieNo) : SameSand (Machine.requestRewrite b s) (Machine.requestRewrite b t) := by
  obtain ⟨h1, h2, h3⟩ := h
  have e := h1.active
  obtain ⟨_, _, _, _, _, _, _, _, _, rfl⟩ := h1
  by_cases ha : s.active = true
  · rw [requestRewrite_active b s ha, requestRewrite_active b _ (e.trans ha)]
    refine ⟨⟨_, _, _, _, _, _, _, _, _, rfl⟩, h2, ?_⟩
    show (requested b _).rewriteSet = (requested b _).rewriteSet
    have r (x : Emission) : (requested b x).rewriteSet = x.rewriteSet.set b true := rfl
    rw [r, r]
    exact congrArg (fun x => Vector.set x b true) h3
  · have ha : s.active = false := by simpa using ha
    rw [requestRewrite_setup b s ha, requestRewrite_setup b _ (e.trans ha)]
    exact ⟨⟨_, _, _, _, _, _, _, _, _, rfl⟩, h2, h3⟩

theorem SameSand.event (standing : Vector Request 4) (issuing : Option BogieNo) :
    SameSand (sandersEvent standing issuing s) (sandersEvent standing issuing t) := by
  obtain ⟨h1, h2, h3⟩ := h
  have k : SandersSee s t :=
    ⟨by obtain ⟨_, _, _, _, _, _, _, _, _, rfl⟩ := h1; rfl, h1.shadow, h1.timeBase, h1.intake, congrArg _ h1.hold,
      fun n => by rw [h1.axles], congrArg _ h2, congrArg _ h2⟩
  refine ⟨?_, ?_, k.requests standing issuing h3⟩
  · obtain ⟨_, _, _, e, -⟩ := sandersEvent_change standing issuing s
    obtain ⟨_, _, _, e', -⟩ := sandersEvent_change standing issuing t
    rw [e, e']
    obtain ⟨_, _, _, _, _, _, _, _, _, rfl⟩ := h1
    exact ⟨_, _, _, _, _, _, _, _, _, rfl⟩
  · rw [sandersEvent_sand _ _ s, sandersEvent_sand _ _ t, k.records standing issuing, h2]

theorem SameSand.react : SameSand (sandersReact s) (sandersReact t) := by
  have e : t.allStanding = s.allStanding := by
    obtain ⟨⟨_, _, _, _, _, _, _, _, _, rfl⟩, -⟩ := h
    rfl
  unfold sandersReact
  rw [e]
  exact h.event _ _

theorem SameSand.enterSlip (n : AxleNo) : SameSand (Machine.enterSlip n s) (Machine.enterSlip n t) := by
  have e1 := h.1.axles
  have e2 := h.1.shadow
  have e3 := h.1.timeBase
  have e4 : axleMode t n = axleMode s n := by
    unfold axleMode State.standing
    rw [h.1.supervision, e2]
  unfold Machine.enterSlip
  simp only [e1, e2, e3, e4]
  split
  · exact ((((h.setAxle n _).raise _ _).raise _ _).requestRewrite _).react
  · exact (((h.setAxle n _).raise _ _).requestRewrite _).react

theorem SameSand.transition (n : AxleNo) : SameSand (Machine.transition n s) (Machine.transition n t) := by
  rcases transition_plan n h.1 with ⟨h1, h2⟩ | ⟨x, -, h1, h2⟩ | ⟨x, -, h1, h2⟩ | ⟨h1, h2⟩
  · rw [h1, h2]; exact h.enterSlip n
  · rw [h1, h2]; exact h.setAxle n x
  · rw [h1, h2]; exact (h.setAxle n x).react
  · rw [h1, h2]; exact h

theorem SameSand.compareLatch : SameSand (Machine.compareLatch s) (Machine.compareLatch t) := by
  have hc (u : State) : Machine.compareLatch u = u.withHold (Machine.compareLatch u).hold := by
    unfold Machine.compareLatch
    repeat' split
    all_goals rfl
  rw [hc s, hc t, compareLatch_congr h.1]
  exact h.withHold _

theorem SameSand.evaluateVref (n : AxleNo) : SameSand (Machine.evaluateVref n s) (Machine.evaluateVref n t) := by
  have e1 : candidateSpeed t n = candidateSpeed s n := by
    obtain ⟨⟨_, _, _, _, _, _, _, _, _, rfl⟩, -⟩ := h
    rfl
  unfold Machine.evaluateVref
  simp only [e1, h.1.intake, h.1.shadow]
  split
  · exact (h.withIntake _).compareLatch.react
  · exact h.compareLatch.react

theorem SameSand.sampled (n : AxleNo) (speed : Nat) (quality : Quality) :
    SameSand (Machine.sampled n speed quality s) (Machine.sampled n speed quality t) := by
  unfold Machine.sampled
  rw [h.1.axles, h.1.timeBase]
  have k := (h.setAxle n (s.axles[n].store speed quality s.timeBase)).evaluateVref n
  unfold evaluated
  rw [k.1.axles, k.1.shadow, k.1.vref]
  exact k.setAxle n _

theorem SameSand.requestIf (b : BogieNo) :
    SameSand (if s.shadow.counts b then Machine.requestRewrite b s else s)
      (if t.shadow.counts b then Machine.requestRewrite b t else t) := by
  rw [h.1.shadow]
  split
  · exact h.requestRewrite b
  · exact h

theorem SameSand.requestAllRewrites : SameSand (Machine.requestAllRewrites s) (Machine.requestAllRewrites t) := by
  unfold Machine.requestAllRewrites
  rw [foldl_upTo4, foldl_upTo4]
  exact (((h.requestIf 0).requestIf 1).requestIf 2).requestIf 3

theorem SameSand.latchRollback (n : AxleNo) : SameSand (Machine.latchRollback n s) (Machine.latchRollback n t) := by
  have gate {u v : State} (k : SameSand u v) : SameSand (closeGate u) (closeGate v) := by
    obtain ⟨⟨_, _, _, _, _, _, _, _, _, rfl⟩, k2, k3⟩ := k
    refine ⟨⟨_, _, _, _, _, _, _, _, _, rfl⟩, ?_, k3⟩
    unfold closeGate
    exact congrArg (fun x : Sand => { x with usedSinceClosing := false }) k2
  have wait {u v : State} (k : SameSand u v) : SameSand (updateReleaseWait false u) (updateReleaseWait false v) := by
    have e : releaseWaitHolds v = releaseWaitHolds u := by
      unfold releaseWaitHolds State.allStand State.standing
      rw [k.1.active, k.1.hold, k.1.shadow, k.1.supervision]
    unfold updateReleaseWait
    simp only [e, k.1.hold, k.1.timeBase]
    split
    · exact k.withHold _
    · exact k.withHold _
  unfold Machine.latchRollback
  simp only [h.1.hold]
  exact (wait (gate ((h.withHold _).raise _ _))).requestAllRewrites.react

end
end Sys2Proof.Machine
end

