-- ==== Sys2Proof/Laws/SandEvents.lean ====
section
/-! SUPPORT. The sanders' event that each shared operation ends with, said on the state before the operation (R110). -/

namespace Sys2Proof.Machine

/-- The reaction of the sanders is their event under the standing requests (R110; log 13). -/
theorem sandersReact_eq {s : State} {standing : Vector Request 4} (h : s.allStanding = standing) :
    sandersReact s = sandersEvent standing none s := by
  rw [← h]
  rfl

theorem settle_sand (s : State) : (settle s).sand = s.sand := rfl

/-- The sander unit after an event, by any state that shows the event the same and the rest of whose sander unit is the
same. -/
theorem sandersReact_sand {s t : State} (h : SandersSee s t) (hd : t.allStanding = s.allStanding)
    (hw : t.sand = { s.sand with usedSinceClosing := t.sand.usedSinceClosing }) :
    (sandersReact t).sand =
      { (sandersEvent s.allStanding none s).sand with usedSinceClosing := t.sand.usedSinceClosing } := by
  unfold sandersReact
  rw [hd, sandersEvent_sand _ _ t, sandersEvent_sand _ _ s, h.records s.allStanding none]
  conv_lhs => rw [hw]

theorem sandersReact_same {s t : State} (h : SandersSee s t) (hd : t.allStanding = s.allStanding)
    (hw : t.sand = s.sand) : (sandersReact t).sand = (sandersEvent s.allStanding none s).sand := by
  unfold sandersReact
  rw [hd, sandersEvent_sand _ _ t, sandersEvent_sand _ _ s, h.records s.allStanding none, hw]

/-- A latching: the event sees the new latch; the gate's closing has cleared used since closing (R102, R110). -/
theorem latchRollback_event (n : AxleNo) (s : State) :
    ∃ u, latchRollback n s = sandersReact u ∧
      (∃ h r f, u =
        { s with
          hold := h
          notices := noted .rollback n.val s.timeBase s.notices
          sand := { s.sand with usedSinceClosing := false }
          emission := { s.emission with rewriteSet := r, decision := f } }) ∧
      (s.active = true → ∀ b : BogieNo,
        u.emission.rewriteSet[b] = true ↔ s.emission.rewriteSet[b] = true ∨ s.shadow.counts b = true) := by
  have wait (u : State) : ∃ h, updateReleaseWait false u = u.withHold h := by
    unfold updateReleaseWait
    split <;> exact ⟨_, rfl⟩
  have closed (u : State) : closeGate u =
      { u with
        hold := { u.hold with gate := .closed, blockedReported := false }
        sand := { u.sand with usedSinceClosing := false } } := rfl
  obtain ⟨h, hw⟩ := wait (closeGate (raise .rollback n.val
    (s.withHold { s.hold with latch := .latched, held := BogieSet.none, settling := none, settled := false })))
  have e : latchRollback n s = sandersReact (requestAllRewrites
      { s with
        hold := h
        notices := noted .rollback n.val s.timeBase s.notices
        sand := { s.sand with usedSinceClosing := false } }) := by
    refine Eq.trans (b := sandersReact (requestAllRewrites (updateReleaseWait false (closeGate (raise .rollback n.val
      (s.withHold
        { s.hold with latch := .latched, held := BogieSet.none, settling := none, settled := false })))))) rfl ?_
    rw [hw, closed]
    rfl
  refine ⟨_, e, ?_, fun ha b => ?_⟩
  · obtain ⟨r, f, hr, -⟩ := requestAllRewrites_change
      { s with
        hold := h
        notices := noted .rollback n.val s.timeBase s.notices
        sand := { s.sand with usedSinceClosing := false } }
    exact ⟨h, r, f, hr⟩
  · exact requestAllRewrites_set
      { s with
        hold := h
        notices := noted .rollback n.val s.timeBase s.notices
        sand := { s.sand with usedSinceClosing := false } } ha b

theorem latchRollback_sand (n : AxleNo) (s : State) :
    (latchRollback n s).sand =
      { (sandersEvent s.allStanding none { s with hold := (latchRollback n s).hold }).sand with
        usedSinceClosing := false } := by
  obtain ⟨u, e, ⟨h, r, f, hu⟩, -⟩ := latchRollback_event n s
  have hl : (latchRollback n s).hold = h := by rw [e, sandersReact_hold, hu]
  rw [hl, e, hu]
  refine (sandersReact_sand (s := { s with hold := h }) ?_ ?_ ?_).trans rfl
  · exact ⟨rfl, rfl, rfl, rfl, rfl, fun _ => Iff.rfl, rfl, rfl⟩
  · rfl
  · rfl

/-- A latching asks for a rewrite of every bogie within the bogie count, and of no other (R102, R119). -/
theorem latchRollback_set (n : AxleNo) (s : State) (ha : s.active = true) (b : BogieNo) :
    (latchRollback n s).emission.rewriteSet[b] = true ↔
      s.emission.rewriteSet[b] = true ∨ s.shadow.counts b = true := by
  obtain ⟨u, e, ⟨h, r, f, hu⟩, hr⟩ := latchRollback_event n s
  have hau : u.active = true := by rw [hu]; exact ha
  have hcu : u.shadow = s.shadow := by rw [hu]
  have k : (sandersReact u).emission.rewriteSet[b] = _ := (sandersEvent_bogie u.allStanding none b u hau).2
  rw [e, k]
  simp only [Bool.or_eq_true, Bool.and_eq_true, hr ha b]
  constructor
  · rintro (k | k)
    · exact k
    · exact Or.inr (hcu ▸ sanderReaction_counts k.1)
  · exact Or.inl

/-- An evaluation of Vref ends with an event that sees the new Vref and latch (R39, R103, R110). -/
theorem evaluateVref_event (n : AxleNo) (s : State) :
    evaluateVref n s = sandersEvent s.allStanding none
      { s with intake := (evaluateVref n s).intake, hold := (evaluateVref n s).hold } := by
  have hc (u : State) : compareLatch u = u.withHold (compareLatch u).hold := by
    unfold compareLatch
    repeat' split
    all_goals rfl
  have : ∃ i h, evaluateVref n s = sandersReact ((s.withIntake i).withHold h) := by
    unfold evaluateVref
    cases candidateSpeed s n with
    | none => exact ⟨s.intake, _, by simp only; rw [hc s]; rfl⟩
    | some c => exact ⟨_, _, by simp only; rw [hc (s.withIntake _)]⟩
  obtain ⟨i, h, e⟩ := this
  have hi : (evaluateVref n s).intake = i := by rw [e, sandersReact_intake, intake_withHold, intake_withIntake]
  have hh : (evaluateVref n s).hold = h := by rw [e, sandersReact_hold, hold_withHold]
  rw [hi, hh, e]
  exact sandersReact_eq rfl

/-- A SLIP entry ends with an event that sees the axle in SLIP (R54, R110). -/
theorem enterSlip_event (n : AxleNo) (s : State) :
    ∃ nt em, enterSlip n s = sandersReact
      { s with axles := (enterSlip n s).axles, notices := nt, emission := em } := by
  have e : ∃ nt em, enterSlip n s = sandersReact
      { s with
        axles := s.axles.set n (s.axles[n].enterSlip s.shadow (axleMode s n) s.timeBase)
        notices := nt
        emission := em } := by
    unfold enterSlip
    simp only
    split
    all_goals
      obtain ⟨r, f, h, -⟩ := requestRewrite_change (s.shadow.axleBogie n) _
      rw [h]
      exact ⟨_, _, rfl⟩
  rw [enterSlip_axles]
  exact e

theorem enterSlip_sand (n : AxleNo) (s : State) :
    (enterSlip n s).sand = (sandersEvent s.allStanding none { s with axles := (enterSlip n s).axles }).sand := by
  obtain ⟨nt, em, e⟩ := enterSlip_event n s
  generalize (enterSlip n s).axles = x at *
  rw [e]
  refine (sandersReact_same (s := { s with axles := x }) ?_ ?_ ?_).trans rfl
  · exact ⟨rfl, rfl, rfl, rfl, rfl, fun _ => Iff.rfl, rfl, rfl⟩
  · rfl
  · rfl

/-- FALLBACK entry ends with an event that sees the new mode (R110, R122, R152). -/
theorem fallbackEntry_sand (k : FallbackCause) (s : State) :
    (fallbackEntry k s).sand =
      (sandersEvent s.allStanding none { s with control := (fallbackEntry k s).control }).sand := by
  let s1 := s.withControl { s.control with mode := .fallback, fallbackCause := k }
  obtain ⟨r, f, h, -⟩ := requestAllRewrites_change s1
  have e : fallbackEntry k s =
      sandersReact { s1 with emission := { s1.emission with rewriteSet := r, decision := f } } := by
    show sandersReact (requestAllRewrites s1) = _
    rw [h]
  have hc : (fallbackEntry k s).control = s1.control := by
    obtain ⟨_, _, _, h, -⟩ := fallbackEntry_change k s
    rw [h]
  rw [hc, e]
  refine (sandersReact_same (s := s1) ?_ ?_ ?_).trans rfl
  · exact ⟨rfl, rfl, rfl, rfl, rfl, fun _ => Iff.rfl, rfl, rfl⟩
  · rfl
  · rfl

/-- A HOLD burst reaches the sanders through a latch that enters CLEAR alone (R104, R110). -/
theorem holdBogie_sand (b : BogieNo) (s : State) :
    (¬ (s.hold.latch = .settling ∧ s.hold.settled = true ∧
        ∀ e, s.shadow.counts e = true → e = b ∨ s.hold.held[e] = true) →
      holdBogie b s = s.withHold (holdBogie b s).hold) ∧
    (s.hold.latch = .settling ∧ s.hold.settled = true ∧
        (∀ e, s.shadow.counts e = true → e = b ∨ s.hold.held[e] = true) →
      holdBogie b s = sandersReact (s.withHold (holdBogie b s).hold)) := by
  let t := s.withHold { s.hold with held := s.hold.held.set b true }
  have hc : (t.hold.settled && decide (t.hold.latch = .settling) && allHeld t) = true ↔
      s.hold.latch = .settling ∧ s.hold.settled = true ∧
        ∀ e, s.shadow.counts e = true → e = b ∨ s.hold.held[e] = true := by
    simp only [Bool.and_eq_true, decide_eq_true_eq, allHeld_iff]
    show (s.hold.settled = true ∧ s.hold.latch = .settling) ∧
      (∀ e, s.shadow.counts e = true → (s.hold.held.set b true)[e] = true) ↔ _
    simp only [mem_set s.hold.held b]
    tauto
  have he : holdBogie b s = if s.hold.latch = .clear then s
      else if (t.hold.settled && decide (t.hold.latch = .settling) && allHeld t) = true then clearLatch t else t := rfl
  refine ⟨fun k => ?_, fun k => ?_⟩
  · rw [he, if_neg (fun z => k (hc.1 z))]
    split <;> rfl
  · have hl : s.hold.latch ≠ .clear := by rw [k.1]; decide
    rw [he, if_neg hl, if_pos (hc.2 k)]
    unfold clearLatch
    rw [sandersReact_hold]
    rfl

/-- What stage 7 of an issue leaves of the sanders and the rewrite set (R104, R110, R131). -/
theorem holdStage_sand (b : BogieNo) (q : Request) (before : Bool) (s : State) :
    let t := holdStage b q before s
    (¬ LatchConfirmed s b q → t.sand.sanders = s.sand.sanders ∧ t.emission = s.emission) ∧
    (LatchConfirmed s b q →
      let p := sandersEvent s.allStanding none { t with sand := s.sand, emission := s.emission }
      t.sand.sanders = p.sand.sanders ∧ t.emission.rewriteSet = p.emission.rewriteSet) := by
  intro t
  have wait (u : State) : ∃ h, updateReleaseWait before u = u.withHold h ∧ h.latch = u.hold.latch := by
    unfold updateReleaseWait
    repeat' split
    · exact ⟨_, rfl, rfl⟩
    · exact ⟨u.hold, rfl, rfl⟩
    · exact ⟨_, rfl, rfl⟩
  obtain ⟨g, hg, hgl⟩ : ∃ g, evaluateGate s = s.withHold g ∧
      g.latch = s.hold.latch ∧ g.settled = s.hold.settled ∧ g.held = s.hold.held := by
    rcases evaluateGate_eq s with e | ⟨-, e⟩ <;> rw [e]
    · exact ⟨s.hold, rfl, rfl, rfl, rfl⟩
    · exact ⟨_, rfl, rfl, rfl, rfl⟩
  have ht : t = updateReleaseWait before
      (if q.mode = .hold then holdBogie b (closeGate (s.withHold g)) else s.withHold g) := by
    rw [← hg]
    rfl
  obtain ⟨h, hw, hl⟩ := wait (if q.mode = .hold then holdBogie b (closeGate (s.withHold g)) else s.withHold g)
  rw [hw] at ht
  clear hw
  by_cases hq : q.mode = .hold
  · rw [if_pos hq] at ht hl
    have hconf : LatchConfirmed s b q ↔ (closeGate (s.withHold g)).hold.latch = .settling ∧
        (closeGate (s.withHold g)).hold.settled = true ∧
        ∀ e, (closeGate (s.withHold g)).shadow.counts e = true →
          e = b ∨ (closeGate (s.withHold g)).hold.held[e] = true := by
      show LatchConfirmed s b q ↔ g.latch = .settling ∧ g.settled = true ∧
        ∀ e, s.shadow.counts e = true → e = b ∨ g.held[e] = true
      rw [hgl.1, hgl.2.1, hgl.2.2]
      simp [LatchConfirmed, hq]
    obtain ⟨k1, k2⟩ := holdBogie_sand b (closeGate (s.withHold g))
    refine ⟨fun hc => ?_, fun hc => ?_⟩
    · rw [ht, k1 (fun z => hc (hconf.2 z))]
      exact ⟨rfl, rfl⟩
    · have e := k2 (hconf.1 hc)
      generalize hx : holdBogie b (closeGate (s.withHold g)) = x at ht e hl
      have hsee : SandersSee { t with sand := s.sand, emission := s.emission }
          ((closeGate (s.withHold g)).withHold x.hold) := by
        have hx : x = _ := e
        obtain ⟨v, r, f, hc, -⟩ := sandersReact_change ((closeGate (s.withHold g)).withHold x.hold)
        rw [← e] at hc
        have htl : t.hold.latch = x.hold.latch := by rw [ht]; exact hl
        refine ⟨?_, ?_, ?_, ?_, htl.symm, ?_, rfl, rfl⟩
        all_goals rw [ht, hc]
        all_goals first | rfl | exact fun _ => Iff.rfl
      have hst : ((closeGate (s.withHold g)).withHold x.hold).allStanding = s.allStanding := rfl
      rw [sandersReact_eq hst] at e
      have r1 := hsee.records s.allStanding none
      have r2 := hsee.requests s.allStanding none rfl
      rw [← e] at r1 r2
      rw [show t.sand = x.sand by rw [ht]; rfl, show t.emission = x.emission by rw [ht]; rfl] at *
      exact ⟨r1, r2⟩
  · rw [if_neg hq] at ht
    refine ⟨fun _ => ?_, fun hc => absurd hc.1 hq⟩
    rw [ht]
    exact ⟨rfl, rfl⟩

end Sys2Proof.Machine
end

