-- ==== Sys2Proof/Laws/Shadow.lean ====
section
/-! SUPPORT. The shadow's parameters as bytes of its tables, where a window locates an address (R9, R13, R130), and what
the checks of RUN validation say of the bytes (R149). -/

namespace Sys2Proof.Machine

/-! ### Parameters as bytes (Tables 11-4 to 11-7) -/

theorem append_byte_toNat {m : Nat} (hi : BitVec m) (lo : Byte) : (hi ++ lo).toNat = lo.toNat + 256 * hi.toNat := by
  rw [BitVec.toNat_append, ← Nat.shiftLeft_add_eq_or_of_lt lo.isLt, Nat.shiftLeft_eq]
  omega

theorem le16_toNat (lo hi : Byte) : (le16 lo hi).toNat = lo.toNat + 256 * hi.toNat :=
  append_byte_toNat hi lo

theorem le24_toNat (b0 b1 b2 : Byte) : (le24 b0 b1 b2).toNat = b0.toNat + 256 * b1.toNat + 65536 * b2.toNat := by
  show ((b2 ++ b1) ++ b0).toNat = _
  rw [append_byte_toNat, append_byte_toNat]
  omega

section
variable (sh : Shadow)

theorem byteAt_le {n : Nat} (v : Vector Byte n) (i : Nat) : byteAt v i < 256 :=
  (v[i]?.getD 0).isLt

theorem vehicleByte_eq (i : Fin 64) : sh.vehicleByte i = byteAt sh.vehicle i.val :=
  (byteAt_val sh.vehicle i.val i.isLt).symm

theorem vehicleHalf_eq (i : Fin 63) : sh.vehicleHalf i = halfAt sh.vehicle i.val := by
  rw [halfAt, byteAt_val sh.vehicle i.val (by omega), byteAt_val sh.vehicle (i.val + 1) (by omega)]
  exact le16_toNat _ _

theorem le16_halfAt {n : Nat} (v : Vector Byte n) (i : Nat) (h : i + 1 < n) :
    (le16 v[i] v[i + 1]).toNat = halfAt v i := by
  rw [halfAt, byteAt_val v i (by omega), byteAt_val v (i + 1) h]
  exact le16_toNat _ _

theorem counts_iff (b : BogieNo) : sh.counts b = true ↔ b.val < byteAt sh.vehicle 1 := by
  simp [Shadow.counts, Shadow.bogieCount, vehicleByte_eq]

section
variable (w : WindowNo)

theorem windowBase_eq : sh.windowBase w = baseAt sh w := by
  rw [baseAt, byteAt_val _ 0 (by decide), byteAt_val _ 1 (by decide), byteAt_val _ 2 (by decide)]
  exact le24_toNat _ _ _

theorem windowSizeCode_eq : sh.windowSizeCode w = byteAt sh.windows[w] 3 :=
  (byteAt_val sh.windows[w] 3 (by decide)).symm
theorem windowKind_eq : sh.windowKind w = byteAt sh.windows[w] 4 := (byteAt_val sh.windows[w] 4 (by decide)).symm
theorem windowFirst_eq : sh.windowFirst w = byteAt sh.windows[w] 5 := (byteAt_val sh.windows[w] 5 (by decide)).symm

theorem impliedIndex_eq (a : Address) : sh.impliedIndex w a = indexAt sh w a := by
  rw [Shadow.impliedIndex, Shadow.recordNumber, windowFirst_eq, windowBase_eq, indexAt]

/-- The record kind of a window is that of its kind byte (Table 11-4). -/
theorem recordKind_iff :
    (sh.recordKind w = some .demand ↔ byteAt sh.windows[w] 4 = 1) ∧
      (sh.recordKind w = some .speed ↔ byteAt sh.windows[w] 4 = 2) ∧
      (sh.recordKind w = some .feedback ↔ byteAt sh.windows[w] 4 = 3) := by
  rw [Shadow.recordKind, windowKind_eq]
  generalize byteAt sh.windows[w] 4 = k
  match k with
  | 0 => decide
  | 1 => decide
  | 2 => decide
  | 3 => decide
  | k + 4 => simp

end

section
variable (n : AxleNo)

theorem axleByte_eq {i : Nat} (h : i < 8) (k : Byte) :
    (sh.axles[n][i] == k) = decide (byteAt sh.axles[n] i = k.toNat) := by
  rw [byteAt_val _ i h, Bool.eq_iff_iff]
  simp [BitVec.toNat_inj]

theorem axleEnabled_iff : sh.axleEnabled n = true ↔ byteAt sh.axles[n] 0 = 1 := by
  have e : sh.axleEnabled n = decide (byteAt sh.axles[n] 0 = 1) := axleByte_eq sh n (by decide) 1
  rw [e, decide_eq_true_eq]

theorem axleSlot_eq : sh.axleSlot n = byteAt sh.axles[n] 2 := (byteAt_val sh.axles[n] 2 (by decide)).symm
theorem axleCutLine_eq : sh.axleCutLine n = byteAt sh.axles[n] 3 := (byteAt_val sh.axles[n] 3 (by decide)).symm
theorem maximumEffort_eq : sh.maximumEffort n = halfAt sh.axles[n] 4 := le16_halfAt _ _ (by decide)
theorem staleLimit_eq : sh.staleLimit n = halfAt sh.axles[n] 6 := le16_halfAt _ _ (by decide)

end

/-! ### Where a window locates an address (R9, R13, R130) -/

theorem windowCovers_iff (w : WindowNo) (a : Address) : sh.windowCovers w a = true ↔ Covers sh w a := by
  simp [Shadow.windowCovers, Covers, windowSizeCode_eq, windowBase_eq]

theorem mem_upTo16 (w : WindowNo) : w ∈ upTo16 := by
  fin_cases w <;> decide

theorem windowAt_covers {w : WindowNo} {a : Address} (h : sh.windowAt a = some w) : Covers sh w a :=
  by
  unfold Shadow.windowAt at h
  exact (windowCovers_iff sh w a).1 (List.find?_some (p := fun w => sh.windowCovers w a) h)

theorem windowAt_only {w : WindowNo} {a : Address} (h : OnlyCovers sh w a) : sh.windowAt a = some w := by
  rcases e : sh.windowAt a with _ | v
  · exact absurd ((windowCovers_iff sh w a).2 h.1) (List.find?_eq_none.1 e w (mem_upTo16 w))
  · rw [h.2 v (windowAt_covers sh e)]

/-- The bogie, the axle and the window of a record's address (R9, R130, R138). -/
theorem located {w : WindowNo} {a : Address} (h : OnlyCovers sh w a) :
    sh.windowNumber a = w.val ∧
      (∀ b : BogieNo, b.val = indexAt sh w a → sh.demandBogie a = b ∧ sh.feedbackBogie a = b) ∧
      ∀ n : AxleNo, n.val = indexAt sh w a → sh.speedAxle a = n := by
  have e := windowAt_only sh h
  refine ⟨by simp only [Shadow.windowNumber, e], fun b hb => ?_, fun n hn => ?_⟩
  · simp only [Shadow.demandBogie, Shadow.feedbackBogie, e, impliedIndex_eq, ← hb]
    exact ⟨Fin.ext (Nat.mod_eq_of_lt b.isLt), Fin.ext (Nat.mod_eq_of_lt b.isLt)⟩
  · simp only [Shadow.speedAxle, e, impliedIndex_eq, ← hn]
    exact Fin.ext (Nat.mod_eq_of_lt n.isLt)

/-- The staging slot of an implied index below its table's size (R13). -/
theorem placeAt_eq (w : WindowNo) (a : Address) :
    (∀ b : BogieNo, b.val = indexAt sh w a →
      sh.placeAt w .demand a = .demand b ∧ sh.placeAt w .feedback a = .feedback b) ∧
      ∀ n : AxleNo, n.val = indexAt sh w a → sh.placeAt w .speed a = .speed n := by
  refine ⟨fun b hb => ?_, fun n hn => ?_⟩
  · have e : Fin.ofNat 4 (sh.impliedIndex w a) = b := by
      rw [impliedIndex_eq, ← hb]
      exact Fin.ext (Nat.mod_eq_of_lt b.isLt)
    simp only [Shadow.placeAt, e, and_self]
  · have e : Fin.ofNat 8 (sh.impliedIndex w a) = n := by
      rw [impliedIndex_eq, ← hn]
      exact Fin.ext (Nat.mod_eq_of_lt n.isLt)
    simp only [Shadow.placeAt, e]

/-- A covered address of an implied index lies in a record that its window holds. -/
theorem holdsRecord_of_covers {w : WindowNo} {a : Address} {k : Nat} (h : Covers sh w a)
    (hk : byteAt sh.windows[w] 4 = k) : HoldsRecord sh k w (indexAt sh w a) := by
  obtain ⟨h4, -, hb, ha⟩ := h
  refine ⟨by omega, hk, Nat.le_add_right _ _, ?_⟩
  have e : 2 ^ byteAt sh.windows[w] 3 = 16 * 2 ^ (byteAt sh.windows[w] 3 - 4) := by
    have : byteAt sh.windows[w] 3 = 4 + (byteAt sh.windows[w] 3 - 4) := by omega
    exact (congrArg (2 ^ ·) this).trans (Nat.pow_add 2 4 _)
  rw [e] at ha
  have : (a.toNat - baseAt sh w) / 16 < 2 ^ (byteAt sh.windows[w] 3 - 4) := by
    rw [Nat.div_lt_iff_lt_mul (by decide)]
    omega
  unfold indexAt
  omega

/-- A rewrite's address is that of the record whose implied index is its bogie (R130). -/
theorem demandRecordAddress_eq {w : WindowNo} {a : Address} {b : BogieNo} (hb : b.val = indexAt sh w a)
    (h : Covers sh w a) (hk : byteAt sh.windows[w] 4 = 1) (ha : (a.toNat - baseAt sh w) % 16 = 0)
    (only : ∀ v, HoldsRecord sh 1 v b.val → v = w) : sh.demandRecordAddress b = a := by
  have holds := holdsRecord_of_covers sh h hk
  rw [← hb] at holds
  have found : (upTo16.find? fun w =>
      decide (4 ≤ sh.windowSizeCode w ∧ sh.windowSizeCode w ≤ 16) && sh.windowKind w == 1 &&
        decide (sh.windowFirst w ≤ b.val ∧ b.val < sh.windowFirst w + sh.windowRecords w)) = some w := by
    rcases e : upTo16.find? _ with _ | v
    · have := List.find?_eq_none.1 e w (mem_upTo16 w)
      simp only [Shadow.windowRecords, windowSizeCode_eq, windowKind_eq, windowFirst_eq, Bool.and_eq_true,
        decide_eq_true_eq, beq_iff_eq] at this
      exact absurd ⟨⟨⟨h.1, h.2.1⟩, hk⟩, holds.2.2⟩ this
    · have := List.find?_some e
      simp only [Shadow.windowRecords, windowSizeCode_eq, windowKind_eq, windowFirst_eq, Bool.and_eq_true,
        decide_eq_true_eq, beq_iff_eq] at this
      rw [only v ⟨by omega, this.1.2, this.2⟩]
  unfold Shadow.demandRecordAddress
  rw [found]
  simp only [windowFirst_eq, windowBase_eq]
  have : baseAt sh w + 16 * (b.val - byteAt sh.windows[w] 5) = a.toNat := by
    rw [hb]
    unfold indexAt
    have := h.2.2.1
    omega
  rw [this]
  simp

/-- The record that covers an address, and the offset in it (R9). -/
theorem recordAddress_eq {w : WindowNo} {a : Address} (h : Covers sh w a) (hb : baseAt sh w % 16 = 0) :
    (recordAddress a).toNat = baseAt sh w + 16 * ((a.toNat - baseAt sh w) / 16) ∧
      recordOffset a = a.toNat - (recordAddress a).toNat := by
  have lt := a.isLt
  have le := h.2.2.1
  have e : (recordAddress a).toNat = a.toNat / 16 * 16 := by
    rw [recordAddress, BitVec.toNat_ofNat, Nat.mod_eq_of_lt (by omega)]
  rw [e, recordOffset]
  omega

/-- The slot of a bogie is occupied exactly when an enabled axle names it (R67). -/
theorem axleAt_isSome (b : BogieNo) (slot : Slot) :
    (sh.axleAt b slot).isSome = true ↔ ∃ n, Occupies sh n b.val slot.code := by
  unfold Shadow.axleAt Occupies
  rw [List.find?_isSome]
  have every (n : AxleNo) : n ∈ upTo8 := by fin_cases n <;> decide
  have bogie (n : AxleNo) : sh.axles[n][1].toNat = byteAt sh.axles[n] 1 := (byteAt_val sh.axles[n] 1 (by decide)).symm
  simp only [every, true_and, Bool.and_eq_true, axleEnabled_iff, beq_iff_eq, axleSlot_eq, and_assoc, bogie]

/-! ### The checks of RUN validation (R149) -/

variable (page : Nat)

theorem checkCounts_iff : checkCounts sh = true ↔ RunCheck sh page 1 := by
  simp [checkCounts, RunCheck, Shadow.axleCount, Shadow.bogieCount, vehicleByte_eq]

theorem lastIndex_iff (f r m : Nat) (h : 0 < r) : (∀ i, f ≤ i → i < f + r → i < m) ↔ f + r ≤ m := by
  constructor
  · intro k
    have := k (f + r - 1) (by omega) (by omega)
    omega
  · intro k i _ _
    omega

theorem indicesFit_iff (w : WindowNo) (h : byteAt sh.windows[w] 3 ≠ 0) : indicesFit sh w = true ↔
    (∀ i, HoldsRecord sh 2 w i → i < byteAt sh.vehicle 0) ∧
      ∀ i, (HoldsRecord sh 1 w i ∨ HoldsRecord sh 3 w i) → i < byteAt sh.vehicle 1 := by
  have last (m : Nat) := lastIndex_iff (byteAt sh.windows[w] 5) (2 ^ (byteAt sh.windows[w] 3 - 4)) m (by positivity)
  have hn : sh.axleCount = byteAt sh.vehicle 0 := vehicleByte_eq sh 0
  have hb : sh.bogieCount = byteAt sh.vehicle 1 := vehicleByte_eq sh 1
  unfold indicesFit Shadow.recordKind HoldsRecord
  rw [windowKind_eq, hn, hb]
  simp only [Shadow.windowRecords, windowFirst_eq, windowSizeCode_eq]
  generalize byteAt sh.windows[w] 4 = k
  generalize byteAt sh.windows[w] 3 = c at *
  match k with
  | 0 => simp
  | 1 => simpa [h] using (last _).symm
  | 2 => simpa [h] using (last _).symm
  | 3 => simpa [h] using (last _).symm
  | k + 4 => simp

theorem checkWindows_iff : checkWindows sh = true ↔ RunCheck sh page 2 := by
  have use (w : WindowNo) : sh.windowInUse w = true ↔ byteAt sh.windows[w] 3 ≠ 0 := by
    simp [Shadow.windowInUse, windowSizeCode_eq]
  unfold checkWindows RunCheck
  rw [all_upTo16]
  refine forall_congr' fun w => ?_
  by_cases h : byteAt sh.windows[w] 3 = 0
  · have : sh.windowInUse w = false := by rw [← Bool.not_eq_true, use w, ne_eq, not_not]; exact h
    simp only [this, Bool.not_false, Bool.true_or, true_iff]
    exact fun k => absurd h k
  · simp only [(use w).2 h, Bool.not_true, Bool.false_or, Bool.and_eq_true, decide_eq_true_eq, windowSizeCode_eq,
      windowBase_eq, windowKind_eq, indicesFit_iff sh w h, ne_eq, h, not_false_eq_true, true_implies, and_assoc]

theorem apart_iff (b e p q : Nat) (h : b < e) (k : p < q) :
    (∀ a, b ≤ a → a < e → ¬ (p ≤ a ∧ a < q)) ↔ (e ≤ p ∨ q ≤ b) := by
  constructor
  · intro f
    by_contra n
    exact f (max b p) (by omega) (by omega) (by omega)
  · omega

theorem checkOverlaps_iff : checkOverlaps sh page = true ↔ RunCheck sh page 3 := by
  have size (w : WindowNo) : baseAt sh w < baseAt sh w + 2 ^ byteAt sh.windows[w] 3 :=
    Nat.lt_add_of_pos_right (by positivity)
  have use (w : WindowNo) : sh.windowInUse w = true ↔ byteAt sh.windows[w] 3 ≠ 0 := by
    simp [Shadow.windowInUse, windowSizeCode_eq]
  unfold checkOverlaps RunCheck
  simp only [all_upTo16, Bool.or_eq_true, Bool.not_eq_true', ← Bool.not_eq_true, use, Bool.and_eq_true, decide_eq_true_eq,
    Shadow.windowEnd, windowBase_eq, windowSizeCode_eq, ne_eq, not_not]
  constructor
  · intro f w a hw h1 h2
    rcases f w with g | ⟨g1, g2⟩
    · exact absurd g hw
    · refine ⟨(apart_iff _ _ _ _ (size w) (by omega)).2 g1 a h1 h2, fun v hv k1 k2 => ?_⟩
      rcases g2 v with (g | g) | g
      · exact g
      · exact absurd g hv
      · exact absurd ⟨k1, k2⟩ ((apart_iff _ _ _ _ (size w) (size v)).2 g a h1 h2)
  · intro f w
    by_cases hw : byteAt sh.windows[w] 3 = 0
    · exact .inl hw
    · refine .inr ⟨(apart_iff _ _ _ _ (size w) (by omega)).1 fun a h1 h2 => (f w a hw h1 h2).1, fun v => ?_⟩
      by_cases hv : byteAt sh.windows[v] 3 = 0
      · exact .inl (.inr hv)
      · by_cases e : v = w
        · exact .inl (.inl e)
        · exact .inr ((apart_iff _ _ _ _ (size w) (size v)).1 fun a h1 h2 k => e ((f w a hw h1 h2).2 v hv k.1 k.2))

theorem countOne_iff (p : WindowNo → Bool) : upTo16.countP p = 1 ↔ ∃! w, p w = true := by
  rw [List.countP_eq_length_filter, List.length_eq_one_iff]
  constructor
  · rintro ⟨w, h⟩
    have mem (v : WindowNo) : p v = true ↔ v = w := by
      have := List.mem_filter (p := p) (x := v) (as := upTo16)
      rw [h] at this
      simpa [mem_upTo16] using this.symm
    exact ⟨w, (mem w).2 rfl, fun v hv => (mem v).1 hv⟩
  · rintro ⟨w, hw, only⟩
    refine ⟨w, ?_⟩
    have same : upTo16.filter p = upTo16.filter fun v => decide (v = w) :=
      List.filter_congr fun v _ => by
        rw [Bool.eq_iff_iff, decide_eq_true_eq]
        exact ⟨only v, fun e => e ▸ hw⟩
    rw [same]
    fin_cases w <;> decide

theorem coverage_iff (r : RecordKind) (k i : Nat) (h : ∀ w, sh.recordKind w = some r ↔ byteAt sh.windows[w] 4 = k) :
    sh.coverage r i = 1 ↔ ∃! w, HoldsRecord sh k w i := by
  unfold Shadow.coverage
  rw [countOne_iff]
  simp only [Bool.and_eq_true, decide_eq_true_eq, h, Shadow.windowInUse, windowSizeCode_eq, windowFirst_eq,
    Shadow.windowRecords, HoldsRecord, and_assoc]

theorem checkCoverage_iff : checkCoverage sh = true ↔ RunCheck sh page 4 := by
  have enabled (n : AxleNo) := axleEnabled_iff sh n
  unfold checkCoverage RunCheck
  simp only [Bool.and_eq_true, all_upTo8, all_upTo4, Bool.or_eq_true, Bool.not_eq_true', ← Bool.not_eq_true, enabled,
    counts_iff, beq_iff_eq, coverage_iff sh .speed 2 _ fun w => (recordKind_iff sh w).2.1,
    coverage_iff sh .demand 1 _ fun w => (recordKind_iff sh w).1,
    coverage_iff sh .feedback 3 _ fun w => (recordKind_iff sh w).2.2, ← imp_iff_not_or]

theorem checkAxleMap_iff : checkAxleMap sh = true ↔ RunCheck sh page 5 := by
  have bogie (n : AxleNo) : sh.axles[n][1].toNat = byteAt sh.axles[n] 1 := (byteAt_val sh.axles[n] 1 (by decide)).symm
  have seat (n m : AxleNo) : sameSeat sh n m = true ↔
      byteAt sh.axles[m] 1 = byteAt sh.axles[n] 1 ∧ byteAt sh.axles[m] 2 = byteAt sh.axles[n] 2 := by
    simp only [sameSeat, Bool.and_eq_true, axleByte_eq, decide_eq_true_eq]
    rw [byteAt_val sh.axles[m] 1 (by decide), byteAt_val sh.axles[m] 2 (by decide)]
    exact ⟨fun h => ⟨h.1.symm, h.2.symm⟩, fun h => ⟨h.1.symm, h.2.symm⟩⟩
  have hn : sh.axleCount = byteAt sh.vehicle 0 := vehicleByte_eq sh 0
  have hb : sh.bogieCount = byteAt sh.vehicle 1 := vehicleByte_eq sh 1
  unfold checkAxleMap RunCheck Occupies
  simp only [Bool.and_eq_true, all_upTo8, any_upTo8, all_upTo4, Bool.or_eq_true, Bool.not_eq_true', ← Bool.not_eq_true,
    axleEnabled_iff, counts_iff, beq_iff_eq, decide_eq_true_eq, ← imp_iff_not_or, bogie, seat, axleSlot_eq, hn, hb,
    and_assoc]
  refine and_congr (forall_congr' fun n => imp_congr_right fun _ => and_congr_right fun _ => and_congr_right fun _ =>
    and_congr_right fun _ => forall_congr' fun m => ?_) Iff.rfl
  tauto

theorem checkOrderings_iff : checkOrderings sh = true ↔ RunCheck sh page 6 := by
  simp [checkOrderings, RunCheck, Shadow.creepAbsolute, Shadow.slipAbsolute, Shadow.creepFraction, Shadow.slipFraction,
    Shadow.hysteresis, Shadow.fadeEnd, Shadow.fadeStart, vehicleHalf_eq, and_assoc]

theorem drop_all {n : Nat} (v : Vector Byte n) (k : Nat) (p : Byte → Bool) :
    (v.toList.drop k).all p = true ↔ ∀ i (h : i < n), k ≤ i → p v[i] = true := by
  simp only [List.all_eq_true, List.mem_drop_iff_getElem]
  constructor
  · intro f i h hk
    exact f _ ⟨i - k, by simp only [Vector.length_toList]; omega, by simp [show k + (i - k) = i by omega]⟩
  · rintro f x ⟨i, hi, rfl⟩
    simp only [Vector.length_toList] at hi
    simpa using f (k + i) (by omega) (by omega)

theorem axleEntryInRange_iff (n : AxleNo) :
    axleEntryInRange sh n = true ↔ (byteAt sh.axles[n] 0 ≠ 0 → AxleEntryFits sh.axles[n]) := by
  have bogie : sh.axles[n][1].toNat = byteAt sh.axles[n] 1 := (byteAt_val sh.axles[n] 1 (by decide)).symm
  have e0 : (sh.axles[n][0] == 0) = decide (byteAt sh.axles[n] 0 = 0) := axleByte_eq sh n (by decide) 0
  have e1 : (sh.axles[n][0] == 1) = decide (byteAt sh.axles[n] 0 = 1) := axleByte_eq sh n (by decide) 1
  unfold axleEntryInRange AxleEntryFits
  rw [e0, e1, bogie]
  simp only [Bool.or_eq_true, Bool.and_eq_true, decide_eq_true_eq, beq_iff_eq, axleSlot_eq, axleCutLine_eq,
    maximumEffort_eq, staleLimit_eq, and_assoc, ne_eq, ← or_iff_not_imp_left]

theorem bogieEntryInRange_iff (b : BogieNo) : bogieEntryInRange sh b = true ↔ BogieEntryFits sh.bogies[b] := by
  have half (i : Nat) (h : i + 1 < 16) : (le16 sh.bogies[b][i] sh.bogies[b][i + 1]).toNat = halfAt sh.bogies[b] i :=
    le16_halfAt _ i h
  have h0 := half 0 (by decide)
  have h2 := half 2 (by decide)
  have h4 := half 4 (by decide)
  have h6 := half 6 (by decide)
  have h8 := half 8 (by decide)
  have h10 := half 10 (by decide)
  have mask : sh.bogies[b][14].toNat = byteAt sh.bogies[b] 14 := (byteAt_val sh.bogies[b] 14 (by decide)).symm
  have rest : (sh.bogies[b][15] == 0) = decide (byteAt sh.bogies[b] 15 = 0) := by
    rw [byteAt_val _ 15 (by decide), Bool.eq_iff_iff]
    simp [← BitVec.toNat_inj]
  unfold bogieEntryInRange BogieEntryFits Shadow.frictionMaximum Shadow.brakeLimit Shadow.holdEffort
    Shadow.fallbackEffort Shadow.slideRelease Shadow.shortfallTolerance
  rw [mask, rest, ← h0, ← h2, ← h4, ← h6, ← h8, ← h10]
  simp only [Bool.and_eq_true, decide_eq_true_eq, and_assoc]

theorem vehicleInRange_iff :
    (vehicleHalvesInRange sh && vehicleBytesInRange sh) = true ↔ VehicleFits sh.vehicle := by
  have zero (x : Byte) : (x == 0) = true ↔ x.toNat = 0 := by simp [← BitVec.toNat_inj]
  have rest : ((sh.vehicle.toList.drop 43).all fun x => x == 0) = true ↔
      ∀ i, 43 ≤ i → i < 64 → byteAt sh.vehicle i = 0 := by
    rw [drop_all]
    constructor
    · intro f i hk h
      rw [byteAt_val _ i h]
      exact (zero _).1 (f i h hk)
    · intro f i h hk
      rw [zero, ← byteAt_val _ i h]
      exact f i hk h
  have some : ([30, 31, 32, 33, 34, 35, 36, 37, 39, 41, 42].all fun i => decide (1 ≤ sh.vehicleByte i)) = true ↔
      ∀ i, 30 ≤ i → i < 43 → i ≠ 38 → i ≠ 40 → 1 ≤ byteAt sh.vehicle i := by
    simp only [List.all_cons, List.all_nil, Bool.and_true, Bool.and_eq_true, decide_eq_true_eq, vehicleByte_eq]
    constructor
    · rintro ⟨a0, a1, a2, a3, a4, a5, a6, a7, a8, a9, a10⟩ i h1 h2 h3 h4
      interval_cases i <;> first | assumption | contradiction
    · intro f
      exact ⟨f 30 (by decide) (by decide) (by decide) (by decide), f 31 (by decide) (by decide) (by decide) (by decide),
        f 32 (by decide) (by decide) (by decide) (by decide), f 33 (by decide) (by decide) (by decide) (by decide),
        f 34 (by decide) (by decide) (by decide) (by decide), f 35 (by decide) (by decide) (by decide) (by decide),
        f 36 (by decide) (by decide) (by decide) (by decide), f 37 (by decide) (by decide) (by decide) (by decide),
        f 39 (by decide) (by decide) (by decide) (by decide), f 41 (by decide) (by decide) (by decide) (by decide),
        f 42 (by decide) (by decide) (by decide) (by decide)⟩
  unfold vehicleHalvesInRange vehicleBytesInRange VehicleFits
  simp only [Bool.and_eq_true, rest, some]
  simp only [decide_eq_true_eq, Shadow.mass, Shadow.gain, Shadow.creepAbsolute, Shadow.slipAbsolute,
    Shadow.creepFraction, Shadow.slipFraction, Shadow.hysteresis, Shadow.accelerationThreshold, Shadow.cutFraction,
    Shadow.persistentCap, Shadow.slope, Shadow.standstillSpeed, Shadow.rollbackSpeed, Shadow.fadeStart, Shadow.fadeEnd,
    Shadow.hillStartGrade, vehicleHalf_eq, vehicleByte_eq, and_assoc]
  rfl

theorem routesInRange_iff : routesInRange sh = true ↔ ∀ k, 1 ≤ k → k < 16 → byteAt sh.routes k ≤ 1 := by
  have small (x : Byte) : (x == 0 || x == 1) = true ↔ x.toNat ≤ 1 := by
    simp only [Bool.or_eq_true, beq_iff_eq, ← BitVec.toNat_inj]
    show x.toNat = 0 ∨ x.toNat = 1 ↔ _
    omega
  unfold routesInRange
  rw [drop_all]
  constructor
  · intro f k hk h
    rw [byteAt_val _ k h]
    exact (small _).1 (f k h hk)
  · intro f k h hk
    rw [small, ← byteAt_val _ k h]
    exact f k hk h

theorem checkRanges_iff : checkRanges sh = true ↔ RunCheck sh page 7 := by
  have vehicle := vehicleInRange_iff sh
  rw [Bool.and_eq_true] at vehicle
  unfold checkRanges RunCheck
  simp only [Bool.and_eq_true, all_upTo8, all_upTo4, Bool.or_eq_true, Bool.not_eq_true', ← Bool.not_eq_true, counts_iff,
    axleEntryInRange_iff, bogieEntryInRange_iff, ← imp_iff_not_or, routesInRange_iff, and_assoc]
  rw [← vehicle]
  simp only [and_assoc]

end

end Sys2Proof.Machine
end

