-- ==== Sys2Proof/Tests/Slice0.lean ====
section
/-! SUPPORT. Tests: well-formedness, a few words of the worked examples, and for every statement with hypotheses
concrete states and operands that meet them. -/

namespace Sys2Proof.Machine.Tests

set_option Elab.async false

/-! ### A small tram: two bogies, four axles, four windows -/

/-- The first bytes of a table, zeros after them. -/
def padded (n : Nat) (l : List Byte) : Vector Byte n :=
  Vector.ofFn fun i => l.getD i.val 0

/-- A table of records, each zeros after its first bytes. -/
def rows (n w : Nat) (l : List (List Byte)) : Vector (Vector Byte w) n :=
  Vector.ofFn fun i => padded w (l.getD i.val [])

/-- DEMAND at 0x080000 (writer 0), SPEED at 0x080040 (writer 1, no reader 7), FEEDBACK at 0x080080 (writer 2), GUARD at
0x0800C0 (writer and reader 0). -/
def tramWindows : Vector (Vector Byte 8) 16 :=
  rows 16 8 [[0x00, 0x00, 0x08, 5, 1, 0, 0x01, 0xFF], [0x40, 0x00, 0x08, 6, 2, 0, 0x02, 0x7F],
    [0x80, 0x00, 0x08, 5, 3, 0, 0x04, 0xFF], [0xC0, 0x00, 0x08, 4, 4, 0, 0x01, 0x01]]

/-- An enabled axle: 100.0 kN at most, 20.0 kN while STALE. -/
def tramAxle (bogie slot : Byte) : List Byte :=
  [1, bogie, slot, 0, 0xE8, 0x03, 0xC8, 0x00]

/-- Friction 150.0, brake 300.0, hold 90.0, fallback 70.0, slide release half, tolerance 10.0, sand low 1500. -/
def tramBogie (mask : Byte) : List Byte :=
  [0xDC, 0x05, 0xB8, 0x0B, 0x84, 0x03, 0xBC, 0x02, 0x00, 0x40, 0x64, 0x00, 0xDC, 0x05, mask, 0]

/-- The vehicle record of the tram. -/
def tramVehicle : Vector Byte 64 :=
  padded 64 [4, 2, 42, 3, 40, 0, 120, 0, 0x8F, 0x02, 0x1F, 0x05, 20, 0, 150, 0, 0, 0x40, 0, 0x60, 200, 0, 30, 0,
    40, 0, 0xE8, 0x03, 0x2C, 0x01, 30, 20, 50, 20, 5, 10, 20, 50, 110, 20, 10, 50, 30]

/-- A configuration that RUN validation passes. -/
def tram : Shadow where
  windows := tramWindows
  axles := rows 8 8 [tramAxle 0 0, tramAxle 0 1, tramAxle 1 0, tramAxle 1 1]
  bogies := rows 4 16 [tramBogie 1, tramBogie 2]
  vehicle := tramVehicle
  coefficients := padded 16 [0, 0x1C, 0, 0x14, 0, 0x0C, 0, 0x04, 0, 0xFC, 0, 0xF4, 0, 0xEC, 0, 0xE4]
  routes := padded 16 [0, 1, 1, 1]

/-- The tram's part in SETUP, and in RUN one second on. -/
def inSetup : State := { State.reset with shadow := tram }

def inRun : State :=
  { State.reset with
    shadow := tram
    control := { State.reset.control with mode := .run }
    timeBase := 1000000 }

theorem test_the_tram_passes_validation : validate tram inSetup.pageBase = 0 := by decide +kernel

theorem test_an_unconfigured_part_fails_check_1 : validate State.reset.shadow State.reset.pageBase = 1 := by
  decide +kernel


/-! ### Well-formedness: an operand that each check refuses -/

theorem test_ill_formed_staging_write :
    (Instr.stagingWrite 0 0x080001 .half 0).wellFormed = false ∧
      (Instr.stagingWrite 0 0x08000F .byte 0).wellFormed = false ∧
      (Instr.stagingWrite 0 0x08000E .byte 0).wellFormed = true := by decide +kernel

theorem test_ill_formed_commits :
    (Instr.speedCommit 1 0x080041 .half 0).wellFormed = false ∧
      (Instr.speedCommit 1 0x08004C .half 0).wellFormed = false ∧
      (Instr.speedCommit 1 0x08004C .word 0).wellFormed = true ∧
      (Instr.feedbackCommit 2 0x08008E .byte 0).wellFormed = false ∧
      (Instr.feedbackCommit 2 0x08008D .word 0).wellFormed = false ∧
      (Instr.feedbackCommit 2 0x08008E .half 0).wellFormed = true ∧
      (Instr.demandCommit 0 0x080000 .word 0).wellFormed = false ∧
      (Instr.demandCommit 0 0x08000D .half 0).wellFormed = false ∧
      (Instr.demandCommit 0 0x08000F .byte 0).wellFormed = true := by decide +kernel

theorem test_ill_formed_pass_accesses :
    (Instr.passWrite 0 2 .word 0).wellFormed = false ∧ (Instr.passWrite 0 4 .word 0).wellFormed = true ∧
      (Instr.passRead 0 1 .half).wellFormed = false ∧ (Instr.passRead 0 1 .byte).wellFormed = true ∧
      (Instr.speedRecordRead 0 0x080042 .word).wellFormed = false ∧
      (Instr.speedRecordRead 0 0x080042 .half).wellFormed = true := by decide +kernel

theorem test_ill_formed_page_writes :
    (Instr.pageWrite 0 0x03FC20 .word 0).wellFormed = false ∧ (Instr.pageWrite 0 0x03FC01 .half 0).wellFormed = false ∧
      (Instr.pageWrite 0 0x03FC2C .word 0).wellFormed = true ∧
      (Instr.shadowTableWrite 0 0x03FC3C .word 0).wellFormed = false ∧
      (Instr.shadowTableWrite 0 0x03FD90 .word 0).wellFormed = false ∧
      (Instr.shadowTableWrite 0 0x03FC42 .word 0).wellFormed = false ∧
      (Instr.shadowTableWrite 0 0x03FC40 .word 0).wellFormed = true ∧
      (Instr.routeTableWrite 0 0x03FD8C .word 0).wellFormed = false ∧
      (Instr.routeTableWrite 0 0x03FD91 .half 0).wellFormed = false ∧
      (Instr.routeTableWrite 0 0x03FD90 .word 0).wellFormed = true := by decide +kernel

theorem test_ill_formed_control_writes :
    (Instr.modeRequestRun 0 0x03FC20 .byte 2).wellFormed = false ∧
      (Instr.modeRequestRun 0 0x03FC21 .byte 1).wellFormed = false ∧
      (Instr.modeRequestRun 0 0x03FC20 .word 0x101).wellFormed = true ∧
      (Instr.modeRequestSetup 0 0x03FC20 .byte 1).wellFormed = false ∧
      (Instr.modeRequestSetup 0 0x03FC22 .byte 2).wellFormed = false ∧
      (Instr.modeRequestSetup 0 0x03FC20 .byte 2).wellFormed = true ∧
      (Instr.clearPersistent 0 0x03FC22 .half 0).wellFormed = false ∧
      (Instr.clearPersistent 0 0x03FC20 .half 1).wellFormed = false ∧
      (Instr.clearPersistent 0 0x03FC21 .byte 1).wellFormed = true ∧
      (Instr.noticeAcknowledge 0 0x03FC21 .byte 0).wellFormed = false ∧
      (Instr.noticeAcknowledge 0 0x03FC20 .word 2).wellFormed = false ∧
      (Instr.noticeAcknowledge 0 0x03FC22 .half 2).wellFormed = true ∧
      (Instr.sandRefill 0 0x03FC24 .byte 1).wellFormed = false ∧
      (Instr.sandRefill 0 0x03FC2C .word 1).wellFormed = false ∧
      (Instr.sandRefill 0 0x03FC25 .half 1).wellFormed = false ∧
      (Instr.sandRefill 0 0x03FC26 .half 1).wellFormed = true := by decide +kernel

theorem test_ill_formed_page_reads :
    (Instr.deviceStatusRead 0 0x03FC20 .word).wellFormed = false ∧
      (Instr.deviceStatusRead 0 0x03FC1E .word).wellFormed = false ∧
      (Instr.deviceStatusRead 0 0x1FFC1C .word).wellFormed = true ∧
      (Instr.noticeEntryRead 0 0x03FDF0 .word).wellFormed = false ∧
      (Instr.noticeEntryRead 0 0x03FE11 .word).wellFormed = false ∧
      (Instr.noticeEntryRead 0 0x03FE00 .word).wellFormed = true := by decide +kernel

theorem test_no_word_spells_a_command : ∀ n w, decodeTableWord n w = none := fun _ _ => rfl

/-! ### States and records for the tests -/

/-- A record of zeros, and the sequence byte 7 with its check. -/
def zeros : Record := Vector.replicate 16 0

/-- A queue entry at an address, sent by tag 1. -/
def entry (k : EntryKind) (a : Address) : Entry where
  kind := k
  address := a
  tag := 1
  retries := 0

/-- The state with a queue, the arbiter having decided. -/
def queued (q : List Entry) (s : State) : State :=
  { s with emission := Emission.arbitrate { s.emission with queue := q } }

/-- A queue with no room. -/
def fullQueue : List Entry :=
  List.replicate 6 (entry (.speedRecord zeros) 0x080040)

/-- The state with something on the D-port since time 0. -/
def flying (f : Flight) (s : State) : State :=
  { s with emission := { s.emission with inFlight := some f, decision := none } }

/-- The state with another record for axle 0. -/
def withAxle (f : Axle → Axle) (s : State) : State :=
  { s with axles := s.axles.set 0 (f s.axles[0]) }

/-- The state with another sander record for bogie 0. -/
def withSander (f : Sander → Sander) (s : State) : State :=
  { s with sand := { s.sand with sanders := s.sand.sanders.set 0 (f s.sand.sanders[0]) } }

/-- The state with a standing request for bogies 0 and 1. -/
def standingBoth (q : Request) (s : State) : State :=
  { s with
    supervision :=
      Vector.ofFn fun b : Fin 4 => { s.supervision[b] with standing := if b.val < 2 then q else Request.reset } }

/-- A request of a mode, FWD, on a gradient of 98 per mille. -/
def ask (m : DemandMode) : Request :=
  { Request.reset with
    mode := m
    gradient := 98 }

/-- The staging store with byte 2 of axle 0's slot at a value. -/
def stagedQuality (v : Byte) (s : State) : State :=
  { s with staging := s.staging.put (.speed 0) (zeros.set 2 v) }

/-- The sequence last seen of axle 0 and of bogie 0's feedback. -/
def lastSeen (q : Byte) (s : State) : State :=
  { withAxle (fun x => { x with lastSequence := some q }) s with
    feedback := s.feedback.set 0 { s.feedback[0] with lastSequence := some q } }

/-- The part in FALLBACK. -/
def inFallback : State :=
  { inRun with control := { inRun.control with mode := .fallback, fallbackCause := .refLost } }

/-! ### Witnesses: the machine -/

theorem test_witness_AnIdleStepTakesADueEventOrAMicrosecond :
    (inRun.pending = [] ∧ dueEvents inRun = []) ∧
      ((withAxle (fun x => { x with staleness := some 0 }) inRun).pending = [] ∧
        dueEvents (withAxle (fun x => { x with staleness := some 0 }) inRun) ≠ []) := by decide +kernel

/-- R116: a microsecond raises the accumulator of a sander in ON, and of none in SETUP. -/
theorem test_a_microsecond_of_sand :
    (tick (withSander (fun x => { x with state := .on }) inRun)).sand.sanders[(0 : BogieNo)].accumulator = 1 ∧
      (tick (withSander (fun x => { x with state := .on }) inSetup)).sand.sanders[(0 : BogieNo)].accumulator = 0 ∧
      (tick inRun).timeBase = 1000001 := by decide +kernel

/-- R39: the elapsed counter counts in RUN and FALLBACK before Vref is set and while it is; R41: it stands in SETUP; R38:
it stops at its last value. -/
theorem test_a_microsecond_of_the_elapsed_counter :
    inRun.intake.vref = none ∧ (tick inRun).intake = { vref := none, elapsed := 1 } ∧
      (tick inFallback).intake = { vref := none, elapsed := 1 } ∧
      (tick { inRun with intake := { vref := some 100, elapsed := 16777214 } }).intake.elapsed = 16777215 ∧
      (tick { inRun with intake := { vref := none, elapsed := 16777215 } }).intake.elapsed = 16777215 ∧
      (tick inSetup).intake = { vref := none, elapsed := 0 } := by decide +kernel

/-- The emission unit with a rewrite of bogie 0 waiting or not, and nothing decided. -/
def arbiter (set : Bool) (q : List Entry) (streak : Nat) : Emission where
  queue := q
  rewriteSet := Emission.reset.rewriteSet.set 0 set
  streak := streak
  inFlight := none
  decision := none

/-- A burst of a kind at a write. -/
def burst (of : BurstOf) (k : Fin 5) : Flight :=
  .burst of 0x080000 zeros k 0

theorem test_witness_TheArbiterIssuesByTheTable :
    (BogieSet.isEmpty (arbiter false [] 0).rewriteSet = true ∧ (arbiter false [] 0).queue = []) ∧
    (BogieSet.isEmpty (arbiter false fullQueue 0).rewriteSet = true ∧ (arbiter false fullQueue 0).queue ≠ []) ∧
    (BogieSet.lowest (arbiter true [] 0).rewriteSet = some 0 ∧ (arbiter true [] 0).queue = []) ∧
    (BogieSet.lowest (arbiter true fullQueue 1).rewriteSet = some 0 ∧ (arbiter true fullQueue 1).queue ≠ [] ∧
      (arbiter true fullQueue 1).streak < 2) ∧
    2 ≤ (arbiter true fullQueue 2).streak ∧
    (inRun.active = true ∧ inRun.emission.inFlight = none ∧ inRun.emission.decision = none) ∧
    ((flying (.access 0) inRun).emission.inFlight ≠ none ∧ (queued fullQueue inRun).emission.decision ≠ none) ∧
    (FailsFlight (flying (.access 0) (queued [entry (.passRead .word) 0] inRun)) .dPortErr ∧
      FailsFlight (flying (burst (.rewrite 0 1) 2) inRun) .dPortTimeout) :=
  ⟨by decide, by decide, by decide, by decide, by decide, by decide, by decide,
    ⟨_, rfl, .inl rfl⟩, ⟨_, rfl, .inr (.inr ⟨rfl, by decide +kernel⟩)⟩⟩

/-- R127: what the arbiter decided at a burst's end stands when a request comes before the issue. -/
theorem test_a_decision_is_not_revised :
    (requestRewrite 0 (queued [entry (.speedRecord zeros) 0x080040] inRun)).emission.rewriteSet[(0 : BogieNo)] = true ∧
      (requestRewrite 0 (queued [entry (.speedRecord zeros) 0x080040] inRun)).emission.decision = some .head ∧
      (requestRewrite 0 (requestRewrite 1 inRun)).emission.decision = some (.rewrite 1) ∧
      (enqueue (entry (.speedRecord zeros) 0x080040) (requestRewrite 1 inRun)).emission.decision =
        some (.rewrite 1) := by decide +kernel

/-- R127, R128: with work of both kinds waiting, the streak decides at the end of a burst. -/
theorem test_the_streak_decides_at_an_end :
    (ended fullQueue (arbiter true fullQueue 1)).decision = some (.rewrite 0) ∧
      (ended fullQueue (arbiter true fullQueue 2)).decision = some .head := by decide +kernel

theorem test_witness_EveryCommandCompletesAndLeavesTheQueue : ∀ p, Instr.dPortTimeout ≠ .powerOn p := by decide

theorem test_witness_ResetLeavesTheValuesOfTheSpec : 0x40 ≤ 0x19F ∧ 0x19F < 0x1A0 := by decide

/-! ### Witnesses: the U-port -/

theorem test_witness_AMisalignedAccessIsAnsweredErr :
    writeOf (.stagingWrite 0 0x080001 .half 5) = some (0, 0x080001, .half, 5) ∧
      readOf (.passRead 3 0x080002 .word) = some (3, 0x080002, .word) ∧ inRun.bus.access = none ∧
      (0x080001 : Address).toNat % AccessSize.half.bytes ≠ 0 ∧
      (0x080002 : Address).toNat % AccessSize.word.bytes ≠ 0 := by decide +kernel

/-- The part in RUN with a snapshot of the device status held for tag 7. -/
def holdsStatus : State :=
  { inRun with
    overlay :=
      { inRun.overlay with
        snapshots := inRun.overlay.snapshots.set 7 (some
          { kind := .deviceStatus
            address := 0x03FC00
            values := [] }) } }

theorem test_witness_AnAccessTheMaskRefusesIsAnsweredErr :
    (writeOf (.speedCommit 0 0x08004C .word 5) = some (0, 0x08004C, .word, 5) ∧
      OffPage inRun 0x08004C .word ∧ matchedWindow inRun 0x08004C = some 1 ∧
      inRun.shadow.windowWriter 1 0 = false) ∧
    (readOf (.passRead 1 0x0800C0 .word) = some (1, 0x0800C0, .word) ∧ OffPage inRun 0x0800C0 .word ∧
      matchedWindow inRun 0x0800C0 = some 3 ∧ inRun.shadow.windowReader 3 1 = false ∧
      inRun.shadow.recordKind 3 ≠ some .speed) ∧
    (readOf (.speedRecordRead 7 0x08004C .word) = some (7, 0x08004C, .word) ∧ OffPage holdsStatus 0x08004C .word ∧
      matchedWindow holdsStatus 0x08004C = some 1 ∧ holdsStatus.shadow.windowReader 1 7 = false ∧
      holdsStatus.shadow.recordKind 1 = some .speed ∧
      ∃ p, holdsStatus.overlay.snapshots[(7 : Tag)] = some p ∧
        ¬ (p.kind = .speedRecord ∧ p.address = recordAddress 0x08004C)) := by
  unfold OffPage
  refine ⟨by decide +kernel, by decide +kernel, by decide +kernel, by decide +kernel, by decide +kernel,
    by decide +kernel, by decide +kernel, ⟨.deviceStatus, 0x03FC00, []⟩, by decide +kernel, by decide +kernel⟩

theorem test_witness_AStagingWriteStoresItsBytes :
    StagingTo inRun 0 0x08000C .half 0 .demand ∧ StagingTo inRun 1 0x080070 .word 1 .speed ∧
      StagingTo inRun 2 0x08009E .byte 2 .feedback ∧ (0x08000C : Address).toNat % AccessSize.half.bytes = 0 := by
  unfold StagingTo RecordWrite OffPage
  decide +kernel

/-- The first and the last address of a window are covered, those beside it are not; the last record of the DEMAND and
FEEDBACK windows is that of bogie 1, that of the SPEED window axle 3's. -/
theorem test_witness_AnAddressLiesInOneWindow :
    inSetup.control.mode = .setup ∧ inRun.control.mode ≠ .setup ∧ OnlyCovers tram 0 0x080000 ∧
      OnlyCovers tram 0 0x08001F ∧ (∀ w, ¬ Covers tram w 0x07FFFF) ∧ (∀ w, ¬ Covers tram w 0x080020) ∧
      matchedWindow inRun 0x08001F = some 0 ∧ byteAt tram.windows[0] 4 = 1 ∧ byteAt tram.windows[1] 4 = 2 ∧
      byteAt tram.windows[2] 4 = 3 ∧ byteAt tram.windows[3] 4 = 4 ∧
      indexAt tram 0 0x08001F = (1 : BogieNo).val ∧ indexAt tram 2 0x08009F = (1 : BogieNo).val ∧
      indexAt tram 1 0x080070 = (3 : AxleNo).val ∧ Covers tram 1 0x080070 ∧ baseAt tram 1 % 16 = 0 := by
  unfold OnlyCovers Covers
  decide +kernel

theorem test_witness_ACommitNotAcceptedChangesNoOwner :
    (writeOf (.speedCommit 1 0x08005C .word 5) = some (1, 0x08005C, .word, 5) ∧
      CommitTo inRun 1 0x08005C .word 1 .speed ∧
      ownerPasses inRun (tram.placeAt 1 .speed 0x08005C) (slotImage inRun (tram.placeAt 1 .speed 0x08005C) 0x08005C
        .word 5) = false) ∧
    (writeOf (.demandCommit 0 0x08000E .half 5) = some (0, 0x08000E, .half, 5) ∧
      CommitTo (queued fullQueue inRun) 0 0x08000E .half 0 .demand ∧
      ownerPasses (queued fullQueue inRun) (tram.placeAt 0 .demand 0x08000E)
        (slotImage (queued fullQueue inRun) (tram.placeAt 0 .demand 0x08000E) 0x08000E .half 5) = true ∧
      ¬ HasRoom (queued fullQueue inRun)) := by
  unfold CommitTo RecordWrite OffPage HasRoom
  decide +kernel

/-- The conditions of an accepted SPEED commit of axle 0 with sequence 5, and its image. -/
def speedAccepted (s : State) : Prop :=
  CommitTo s 1 0x08004E .half 1 .speed ∧ s.shadow.placeAt 1 .speed 0x08004E = .speed 0 ∧
    ownerPasses s (.speed 0) (slotImage s (.speed 0) 0x08004E .half 5) = true ∧ HasRoom s

theorem test_witness_AnAcceptedSpeedCommitIsQueuedAndApplied :
    (speedAccepted (lastSeen 5 inRun) ∧
      (lastSeen 5 inRun).axles[(0 : AxleNo)].lastSequence =
        some (slotImage (lastSeen 5 inRun) (.speed 0) 0x08004E .half 5)[14]) ∧
    (speedAccepted (stagedQuality 2 inRun) ∧
      (slotImage (stagedQuality 2 inRun) (.speed 0) 0x08004E .half 5)[2] = 2) ∧
    (speedAccepted inRun ∧ (slotImage inRun (.speed 0) 0x08004E .half 5)[2] ≠ 2 ∧
      inRun.axles[(0 : AxleNo)].lastSequence = none) ∧
    (speedAccepted (lastSeen 3 inRun) ∧ (slotImage (lastSeen 3 inRun) (.speed 0) 0x08004E .half 5)[14] ≠ 3 ∧
      (slotImage (lastSeen 3 inRun) (.speed 0) 0x08004E .half 5)[14] ≠ 3 + 1) ∧
    (speedAccepted (lastSeen 4 inRun) ∧ (lastSeen 4 inRun).axles[(0 : AxleNo)].lastSequence =
      some ((slotImage (lastSeen 4 inRun) (.speed 0) 0x08004E .half 5)[14] - 1)) := by
  unfold speedAccepted CommitTo RecordWrite OffPage HasRoom
  decide +kernel

/-- Axle 0's slot staged with a sensed direction and a speed. -/
def stagedSample (direction lo hi : Byte) (s : State) : State :=
  { s with staging := s.staging.put (.speed 0) (((zeros.set 1 direction).set 4 lo).set 5 hi) }

/-- A sample at 12.00 with Vref 10.00 takes a driving axle in GRIP to SLIP; one at 0.40 in REV is a rollback detection,
and with the latch LATCHED it is none. -/
theorem test_witness_AnAcceptedSpeedCommitMakesItsTransition :
    (speedAccepted
        (stagedSample 0 0xB0 0x04 (standingBoth (ask .drive) { withAxle (fun x => { x with state := .grip }) inRun with
          intake := { vref := some 1000, elapsed := 0 } })) ∧
      (presentWrite 1 0x08004E .half 5
        (stagedSample 0 0xB0 0x04 (standingBoth (ask .drive) { withAxle (fun x => { x with state := .grip }) inRun with
          intake := { vref := some 1000, elapsed := 0 } }))).axles[(0 : AxleNo)].state = .slip) ∧
    (speedAccepted (stagedSample 1 40 0 inRun) ∧
      sensedDirection (slotImage (stagedSample 1 40 0 inRun) (.speed 0) 0x08004E .half 5)[1] =
        some inRun.hold.direction.opposite ∧
      tram.rollbackSpeed ≤ recordSpeed (slotImage (stagedSample 1 40 0 inRun) (.speed 0) 0x08004E .half 5) ∧
      (presentWrite 1 0x08004E .half 5 (stagedSample 1 40 0 inRun)).hold.latch = .latched) ∧
    (speedAccepted (stagedSample 1 39 0 inRun) ∧
      (presentWrite 1 0x08004E .half 5 (stagedSample 1 39 0 inRun)).hold.latch = .clear) := by
  unfold speedAccepted CommitTo RecordWrite OffPage HasRoom
  decide +kernel

/-- The conditions of an accepted FEEDBACK commit of bogie 0 with sequence 5. -/
def feedbackAccepted (s : State) : Prop :=
  CommitTo s 2 0x08008E .half 2 .feedback ∧ s.shadow.placeAt 2 .feedback 0x08008E = .feedback 0 ∧
    ownerPasses s (.feedback 0) (slotImage s (.feedback 0) 0x08008E .half 5) = true ∧ HasRoom s

theorem test_witness_AnAcceptedFeedbackCommitIsQueuedAndApplied :
    (feedbackAccepted (lastSeen 5 inRun) ∧ (lastSeen 5 inRun).feedback[(0 : BogieNo)].lastSequence =
      some (slotImage (lastSeen 5 inRun) (.feedback 0) 0x08008E .half 5)[14]) ∧
    (feedbackAccepted inRun ∧ inRun.feedback[(0 : BogieNo)].lastSequence = none) ∧
    (feedbackAccepted (lastSeen 3 inRun) ∧ (lastSeen 3 inRun).feedback[(0 : BogieNo)].lastSequence = some 3 ∧
      (slotImage (lastSeen 3 inRun) (.feedback 0) 0x08008E .half 5)[14] = 5) ∧
    (feedbackAccepted (lastSeen 4 inRun) ∧ (lastSeen 4 inRun).feedback[(0 : BogieNo)].lastSequence = some 4) := by
  unfold feedbackAccepted CommitTo RecordWrite OffPage HasRoom
  decide +kernel

theorem test_witness_TheGateOpensWhenTheMotorsHaveTheGrade :
    inRun.active = true ∧
    ((∃ b, tram.counts b = true ∧ ((standingBoth (ask .drive) inRun).standing b).gradient.toInt = 98) ∧
      (∀ b, tram.counts b = true → ((standingBoth (ask .drive) inRun).standing b).gradient.toInt ≤ 98)) ∧
    ((∃ b, tram.counts b = true ∧ (inRun.standing b).gradient.toInt = 0) ∧
      (∀ b, tram.counts b = true → (inRun.standing b).gradient.toInt ≤ 0)) ∧
    (1 : BogieNo).val < byteAt tram.vehicle 1 ∧ Occupies tram 2 1 0 ∧ Occupies tram 3 1 1 ∧
    (∀ n, ¬ Occupies tram n 2 0) ∧ ∀ n, ¬ Occupies tram n 2 1 := by
  unfold Occupies
  decide +kernel

/-- The conditions of an accepted DEMAND commit of bogie 0. -/
def demandAccepted (s : State) : Prop :=
  CommitTo s 0 0x08000E .half 0 .demand ∧ s.shadow.placeAt 0 .demand 0x08000E = .demand 0 ∧
    ownerPasses s (.demand 0) (slotImage s (.demand 0) 0x08000E .half 5) = true ∧ HasRoom s

/-- Bogie 0 is LATE. -/
def late (s : State) : State :=
  { s with supervision := s.supervision.set 0 { s.supervision[0] with late := true, timer := none } }

theorem test_witness_AnAcceptedDemandCommitIsQueuedAndApplied :
    (demandAccepted inRun ∧ inRun.supervision[(0 : BogieNo)].late = false) ∧
      (demandAccepted (late inRun) ∧ (late inRun).supervision[(0 : BogieNo)].late = true) := by
  unfold demandAccepted CommitTo RecordWrite OffPage HasRoom
  decide +kernel

theorem test_witness_ADemandCommitIsJudgedAgainstTheOtherBogies :
    (zeros[0] = 0 ∧ zeros[1] = 0) ∧ (zeros.set 0 1)[0] = 1 ∧ (zeros.set 0 2)[0] = 2 ∧ (zeros.set 0 3)[0] = 3 ∧
      (zeros.set 1 1)[1] = 1 := by decide

theorem test_witness_APassThroughAccessJoinsTheQueue :
    (PassingWrite inSetup 3 0x000000 .word ∧ HasRoom inSetup) ∧
      (PassingWrite (queued fullQueue inRun) 0 0x0800C0 .word ∧ ¬ HasRoom (queued fullQueue inRun)) ∧
      (PassingRead inRun 0 0x0800C4 .byte ∧ HasRoom inRun ∧ matchedWindow inRun 0x0800C4 = some 3 ∧
        tram.recordKind 3 ≠ some .speed) ∧
      (PassingRead (queued fullQueue inRun) 5 0x000000 .half ∧ matchedWindow inRun 0x000000 = none) ∧
      writeOf (.passWrite 0 0x0800C0 .word 5) = some (0, 0x0800C0, .word, 5) ∧
      readOf (.speedRecordRead 6 0x080074 .word) = some (6, 0x080074, .word) ∧
      (PassingRead (queued fullQueue inRun) 6 0x080074 .word ∧ tram.recordKind 1 = some .speed) := by
  unfold PassingWrite PassingRead OffPage HasRoom
  refine ⟨by decide +kernel, ⟨⟨by decide +kernel, .inr ⟨3, by decide +kernel⟩⟩, by decide +kernel⟩,
    ⟨⟨by decide +kernel, .inr ⟨3, by decide +kernel⟩⟩, by decide +kernel⟩,
    ⟨⟨by decide +kernel, .inl (by decide +kernel)⟩, by decide +kernel⟩, rfl, rfl,
    ⟨by decide +kernel, .inr ⟨1, by decide +kernel⟩⟩, by decide +kernel⟩

theorem test_witness_ASpeedRecordReadFixesItsValues :
    OffPage inRun 0x080074 .word ∧ matchedWindow inRun 0x080074 = some 1 ∧ tram.windowReader 1 6 = true ∧
      tram.placeAt 1 .speed 0x080074 = .speed 3 ∧ tram.recordKind 1 = some .speed ∧ HasRoom inRun := by
  unfold OffPage HasRoom
  decide +kernel

/-! ### Witnesses: the control page -/

theorem test_witness_APageWriteWithoutAnActionIsForwarded :
    (OnPage inRun 0x03FC1C .word 0x1C ∧ HasRoom inRun) ∧ (OnPage inRun 0x03FC2C .word 0x2C ∧ HasRoom inRun) ∧
      (OnPage inRun 0x03FC3F .byte 0x3F ∧ HasRoom inRun) ∧
      (OnPage (queued fullQueue inRun) 0x03FDA0 .word 0x1A0 ∧ ¬ HasRoom (queued fullQueue inRun)) := by
  unfold OnPage HasRoom
  decide +kernel

/-- A shadow table write, a mode request, a clear, an acknowledgement and a refill that find no room. -/
theorem test_witness_APageWriteFindsNoRoom :
    (writeOf (.shadowTableWrite 0 0x03FC40 .word 5) = some (0, 0x03FC40, .word, 5) ∧
      OnPage (queued fullQueue inSetup) 0x03FC40 .word 0x40 ∧ ¬ HasRoom (queued fullQueue inSetup) ∧
      (queued fullQueue inSetup).control.mode = .setup) ∧
    (writeOf (.modeRequestSetup 0 0x03FC20 .byte 2) = some (0, 0x03FC20, .byte, 2) ∧
      OnPage (queued fullQueue inRun) 0x03FC20 .byte 0x20 ∧ ¬ HasRoom (queued fullQueue inRun) ∧
      ¬ 2 < (2 : Word).toNat % 256) ∧
    (writeOf (.clearPersistent 0 0x03FC21 .byte 1) = some (0, 0x03FC21, .byte, 1) ∧
      OnPage (queued fullQueue inRun) 0x03FC21 .byte 0x21) ∧
    (writeOf (.noticeAcknowledge 0 0x03FC22 .half 2) = some (0, 0x03FC22, .half, 2) ∧
      OnPage (queued fullQueue inRun) 0x03FC22 .half 0x22) ∧
    (writeOf (.sandRefill 0 0x03FC28 .word 5) = some (0, 0x03FC28, .word, 5) ∧
      OnPage (queued fullQueue inRun) 0x03FC28 .word 0x28) := by
  unfold OnPage HasRoom
  refine ⟨?_, ?_, ?_, ?_, ?_⟩ <;> decide +kernel

theorem test_witness_ARefusedPageWriteIsAnsweredErr :
    (writeOf (.pageWrite 3 0x03FC00 .word 0) = some (3, 0x03FC00, .word, 0) ∧ OnPage inRun 0x03FC00 .word 0) ∧
    (writeOf (.shadowTableWrite 0 0x03FD9C .word 0) = some (0, 0x03FD9C, .word, 0) ∧
      OnPage inRun 0x03FD9C .word 0x19C ∧ inRun.active = true) ∧
    (writeOf (.modeRequestRun 0 0x03FC20 .byte 3) = some (0, 0x03FC20, .byte, 3) ∧
      OnPage inRun 0x03FC20 .byte 0x20 ∧ 2 < (3 : Word).toNat % 256) ∧
    (writeOf (.sandRefill 0 0x03FC2B .byte 3) = some (0, 0x03FC2B, .byte, 3) ∧
      OnPage inRun 0x03FC2B .byte 0x2B) := by
  unfold OnPage
  refine ⟨?_, ?_, ?_, ?_⟩ <;> decide +kernel

theorem test_witness_AShadowTableWriteInSetupReplacesItsBytes :
    (OnPage inSetup 0x03FC40 .word 0x40 ∧ inSetup.control.mode = .setup ∧ HasRoom inSetup) ∧
      (OnPage inSetup 0x03FD9C .half 0x19C ∧ 0x190 ≤ 0x19C) ∧ 0x19C % AccessSize.word.bytes = 0 := by
  unfold OnPage HasRoom
  decide +kernel

theorem test_witness_ARunRequestThatValidatesEntersRun :
    OnPage inSetup 0x03FC20 .word 0x20 ∧ (0x00020001 : Word).toNat % 256 = 1 ∧ inSetup.control.mode = .setup ∧
      validate inSetup.shadow inSetup.pageBase = 0 ∧ HasRoom inSetup := by
  unfold OnPage HasRoom
  decide +kernel

/-- The part in RUN with the tram moving. -/
def moving (v : Nat) (s : State) : State :=
  { s with intake := { vref := some v, elapsed := 0 } }

theorem test_witness_ARefusedModeRequestKeepsItsReason :
    (OnPage State.reset 0x03FC20 .byte 0x20 ∧ HasRoom State.reset ∧ State.reset.control.mode = .setup ∧
      validate State.reset.shadow State.reset.pageBase = 1) ∧
    (OnPage inFallback 0x03FC20 .byte 0x20 ∧ HasRoom inFallback ∧ inFallback.control.mode ≠ .setup) ∧
    (OnPage (standingBoth (ask .drive) inRun) 0x03FC20 .byte 0x20 ∧
      ∃ b, tram.counts b = true ∧ ((standingBoth (ask .drive) inRun).standing b).mode ≠ .hold) ∧
    (OnPage (moving 30 inRun) 0x03FC20 .byte 0x20 ∧ (moving 30 inRun).control.mode = .run ∧
      tram.standstillSpeed ≤ (moving 30 inRun).vref ∧ (2 : Word).toNat % 256 = 2) := by
  unfold OnPage HasRoom
  decide +kernel

/-- A byte that each of the seven checks refuses: no axle, a size code of 3, two windows at one place, a window too
few, an axle count below an axle, a creep fraction above the slip fraction, a route of 2. -/
theorem test_each_check_of_validation_refuses :
    validate { tram with vehicle := tram.vehicle.set 0 0 } 0x03FC00 = 1 ∧
      validate { tram with windows := tram.windows.set 3 (tram.windows[3].set 3 3) } 0x03FC00 = 2 ∧
      validate { tram with windows := tram.windows.set 3 (tram.windows[3].set 0 0x80) } 0x03FC00 = 3 ∧
      validate { tram with windows := tram.windows.set 2 (tram.windows[2].set 3 0) } 0x03FC00 = 4 ∧
      validate { tram with axles := tram.axles.set 3 (tram.axles[3].set 1 4) } 0x03FC00 = 5 ∧
      validate { tram with vehicle := tram.vehicle.set 9 0x06 } 0x03FC00 = 6 ∧
      validate { tram with routes := tram.routes.set 15 2 } 0x03FC00 = 7 := by decide +kernel

theorem test_witness_ASetupRequestAtRestEntersSetup :
    (OnPage (moving 29 inRun) 0x03FC20 .half 0x20 ∧ (0xFF02 : Word).toNat % 256 = 2 ∧ (moving 29 inRun).active = true ∧
      HasRoom (moving 29 inRun) ∧ (∀ b, tram.counts b = true → ((moving 29 inRun).standing b).mode = .hold) ∧
      (moving 29 inRun).vref < tram.standstillSpeed) ∧
    (OnPage inFallback 0x03FC20 .half 0x20 ∧ inFallback.active = true ∧ inFallback.control.mode ≠ .run) := by
  unfold OnPage HasRoom
  decide +kernel

theorem test_witness_AControlWriteClearsFlagsAndNotices :
    (OnPage inRun 0x03FC20 .word 0x20 ∧ (0xFFFFFF00 : Word).toNat % 256 = 0 ∧ HasRoom inRun) ∧
      OnPage inRun 0x03FC21 .byte 0x21 ∧ OnPage inRun 0x03FC22 .half 0x22 ∧ OnPage inRun 0x03FC23 .byte 0x23 := by
  unfold OnPage HasRoom
  decide +kernel

/-- Bogie 0's sander is EMPTY, with a cause that stands or with none. -/
def emptied (cause : Bool) : State :=
  { withSander (fun x => { x with state := .empty }) inRun with
    hold := { inRun.hold with latch := if cause then .latched else .clear } }

theorem test_witness_ARefillSetsTheBudgets :
    (OnPage inRun 0x03FC2A .half 0x2A ∧ HasRoom inRun ∧ 0x2A = 0x24 + 2 * (3 : BogieNo).val) ∧
      (OnPage inSetup 0x03FC24 .word 0x24 ∧ 0x24 + 2 = 0x24 + 2 * (1 : BogieNo).val ∧ inSetup.active = false) ∧
      (inRun.active = true ∧ inRun.sand.sanders[(0 : BogieNo)].state ≠ .empty) ∧
      ((emptied true).sand.sanders[(0 : BogieNo)].state = .empty ∧
        causeStands (emptied true) (emptied true).allStanding 0 = true) ∧
      ((emptied false).sand.sanders[(0 : BogieNo)].state = .empty ∧
        causeStands (emptied false) (emptied false).allStanding 0 = false) := by
  unfold OnPage HasRoom
  decide +kernel

theorem test_witness_AStatusReadFixesItsValues :
    (OnPage inRun 0x03FC1F .byte 0x1F ∧ HasRoom inRun) ∧
      (OnPage inRun 0x03FEFC .word 0x2FC ∧ 0x210 + 16 * (14 : Fin 15).val ≤ 0x2FC) ∧
      (OnPage inRun 0x03FE10 .half 0x210 ∧ 0x210 < 0x220 + 16 * (0 : Fin 15).val) ∧
      (OnPage inRun 0x03FE00 .word 0x200 ∧ OnPage inRun 0x03FE0F .byte 0x20F) ∧
      (readOf (.deviceStatusRead 3 0x03FC00 .word) = some (3, 0x03FC00, .word) ∧
        OnPage (queued fullQueue inRun) 0x03FC00 .word 0 ∧ ¬ HasRoom (queued fullQueue inRun)) := by
  unfold OnPage HasRoom
  decide +kernel

theorem test_witness_ValidWindowsShareNoAddress :
    validate inRun.shadow inRun.pageBase = 0 ∧ tram.windowCovers 0 0x08001F = true ∧
      tram.windowCovers 3 0x0800CF = true := by
  decide +kernel

/-! ### Witnesses: timers -/

/-- Axle 0's staleness timer has elapsed, the other axles being STALE, with Vref set or not. -/
def aboutToStale (set : Bool) (s : State) : State :=
  { withAxle (fun x => { x with staleness := some 0, state := .grip }) s with
    intake := { vref := if set then some 100 else none, elapsed := 0 } }

theorem test_witness_AStalenessExpiryMakesTheAxleStale :
    (aboutToStale true inRun).axles[(0 : AxleNo)].staleness = some 0 ∧
      tram.stalenessTimeout ≤ interval (aboutToStale true inRun).timeBase 0 ∧
      ((aboutToStale true inRun).active = true ∧ (aboutToStale true inRun).intake.vref.isSome = true ∧
        (∀ m : AxleNo, m ≠ 0 → tram.axleEnabled m = true → (aboutToStale true inRun).axles[m].state = .stale) ∧
        (aboutToStale true inRun).control.mode = .run) ∧
      ((aboutToStale true inFallback).active = true ∧ (aboutToStale true inFallback).control.mode = .fallback) ∧
      (aboutToStale false inRun).intake.vref.isSome = false := by decide +kernel

theorem test_witness_TheFreshnessAndDemandTimersExpire :
    (∃ s : State, s.feedback[(0 : BogieNo)].freshness = some 0 ∧ s.shadow.feedbackTimeout ≤ interval s.timeBase 0) ∧
    (∃ s : State, s.active = true ∧ s.supervision[(0 : BogieNo)].late = false ∧
      s.supervision[(0 : BogieNo)].timer = some 0 ∧ s.shadow.demandTimeout ≤ interval s.timeBase 0) :=
  ⟨⟨{ inRun with feedback := inRun.feedback.set 0 { Feedback.reset with freshness := some 0 } }, by decide +kernel⟩,
    ⟨{ inRun with supervision := inRun.supervision.set 0 { Supervision.reset with timer := some 0 } },
      by decide +kernel⟩⟩

/-- The part at a later time, with another hold unit. -/
def holding (h : Hold) : State :=
  { inRun with
    timeBase := 20000000
    hold := h }

theorem test_witness_TheHoldTimersExpire :
    ((holding { Hold.reset with releaseWait := some 0 }).hold.releaseWait = some 0 ∧
      tram.holdReleaseTimeout ≤ interval (20000000 : Word) 0) ∧
    ((holding { Hold.reset with latch := .settling, settling := some 0 }).hold.latch = .settling ∧
      tram.rollbackClearTime ≤ interval (20000000 : Word) 0 ∧
      ∃ b, tram.counts b = true ∧
        (holding { Hold.reset with latch := .settling, settling := some 0 }).hold.held[b] = false) ∧
    (∀ b, tram.counts b = true →
      (holding { Hold.reset with latch := .settling, settling := some 0, held := Vector.replicate 4 true }).hold.held[b] =
        true) := by decide +kernel

/-- The hill-start window has run out and bogie 0's sander is ON. -/
def windowOver : State :=
  { inRun with
    timeBase := 20000000
    sand :=
      { inRun.sand with
        sanders := inRun.sand.sanders.set 0 { Sander.reset with state := .on, runTimer := some 19999000 }
        windowOpen := true
        windowTimer := some 0 } }

/-- The same with a sand dwell of 0. -/
def windowOverNoDwell : State :=
  { windowOver with shadow := { tram with vehicle := tramVehicle.set 40 0 } }

theorem test_witness_AWindowExpiryClosesTheWindow :
    (windowOver.sand.windowTimer = some 0 ∧ tram.hillStartTime ≤ interval windowOver.timeBase 0 ∧
      windowOver.active = true ∧ windowOver.sand.sanders[(0 : BogieNo)].state = .on ∧
      windowOver.sand.sanders[(0 : BogieNo)].runOverdue = false ∧
      causeStands { windowOver with sand := { windowOver.sand with windowOpen := false, windowTimer := none } }
        windowOver.allStanding 0 = false ∧ tram.sandDwell ≠ 0) ∧
    (causeStands
        { windowOverNoDwell with sand := { windowOverNoDwell.sand with windowOpen := false, windowTimer := none } }
        windowOverNoDwell.allStanding 0 = false ∧ windowOverNoDwell.shadow.sandDwell = 0) := by decide +kernel

/-- Bogie 0's sander in a state with its timers run out, with the latch as given. -/
def sandTimer (x : SanderState) (l : Latch) : State :=
  { withSander
      (fun y =>
        { y with
          state := x
          runTimer := some 0
          dwellTimer := some 0
          pauseTimer := some 0 }) inRun with
    timeBase := 20000000
    hold := { Hold.reset with latch := l } }

theorem test_witness_TheSanderTimersExpire :
    ((sandTimer .dwell .clear).active = true ∧ (sandTimer .dwell .clear).sand.sanders[(0 : BogieNo)].state = .dwell ∧
      (sandTimer .dwell .clear).sand.sanders[(0 : BogieNo)].dwellTimer = some 0 ∧
      tram.sandDwell ≤ interval (sandTimer .dwell .clear).timeBase 0 ∧
      causeStands (sandTimer .dwell .clear) (sandTimer .dwell .clear).allStanding 0 = false) ∧
    ((sandTimer .pause .latched).active = true ∧ tram.sandPause ≤ interval (sandTimer .pause .latched).timeBase 0 ∧
      (sandTimer .pause .latched).sand.sanders[(0 : BogieNo)].pauseTimer = some 0 ∧
      causeStands (sandTimer .pause .latched) (sandTimer .pause .latched).allStanding 0 = true) ∧
    ((sandTimer .on .clear).sand.sanders[(0 : BogieNo)].state = .on ∧
      (sandTimer .on .clear).sand.sanders[(0 : BogieNo)].runTimer = some 0 ∧
      tram.maximumSand ≤ interval (sandTimer .on .clear).timeBase 0) := by
  refine ⟨?_, ?_, ?_⟩ <;> decide +kernel

/-- Bogie 0's sander ON with a budget and a unit used. -/
def used (budget : Half) (s : State) : State :=
  withSander
    (fun x =>
      { x with
        state := .on
        budget := budget
        accumulator := 10000 }) s

theorem test_witness_AUnitFallLowersTheBudget :
    (10000 ≤ (used 1 inRun).sand.sanders[(0 : BogieNo)].accumulator ∧
      (used 1 inRun).sand.sanders[(0 : BogieNo)].budget ≠ 0 ∧ (used 1 inRun).active = true) ∧
    ((used 1 inSetup).sand.sanders[(0 : BogieNo)].budget = 1 ∧ (used 1 inSetup).active = false) ∧
    ((used 1500 inRun).sand.sanders[(0 : BogieNo)].budget.toNat = tram.sandLow 0 ∧
      (used 1500 inRun).sand.sanders[(0 : BogieNo)].budget ≠ 1) := by decide +kernel

theorem test_witness_ASanderMakesItsTransition :
    ((sandTimer .off .clear).active = true ∧ (sandTimer .off .clear).sand.sanders[(0 : BogieNo)].state = .off ∧
      causeStands (sandTimer .off .clear) (sandTimer .off .clear).allStanding 0 = false) ∧
    causeStands (sandTimer .off .latched) (sandTimer .off .latched).allStanding 0 = true ∧
    ((withSander (fun x => { x with runOverdue := true }) (sandTimer .on .clear)).sand.sanders[(0 : BogieNo)].runOverdue =
      true ∧ (sandTimer .on .clear).hold.latch = .clear) ∧
    ((sandTimer .on .latched).hold.latch ≠ .clear ∧
      causeStands (sandTimer .on .latched) (sandTimer .on .latched).allStanding 0 = true) ∧
    ((sandTimer .dwell .clear).sand.sanders[(0 : BogieNo)].runOverdue = false ∧ tram.sandDwell ≠ 0 ∧
      windowOverNoDwell.shadow.sandDwell = 0) ∧
    ((sandTimer .pause .settling).sand.sanders[(0 : BogieNo)].state = .pause ∧ tram.counts 0 = true ∧
      tram.counts 2 = false) ∧
    (sandTimer .empty .clear).sand.sanders[(0 : BogieNo)].state = .empty := by
  refine ⟨?_, ?_, ?_, ?_, ?_, ?_, ?_⟩ <;> decide +kernel

/-! ### Witnesses: issues and the composer -/

/-- A rewrite of bogie 0 waits, the arbiter having decided. -/
def rewriting (s : State) : State :=
  { s with emission := requested 0 s.emission }

/-- A DEMAND_COMMIT of bogie 0 waits: HOLD, FWD. -/
def committed : State :=
  queued [entry (.demandCommit (zeros.set 0 3)) 0x080000] inRun

/-- A latch that has settled waits for bogie 0 alone to be held. -/
def allButHeld : State :=
  holding { Hold.reset with latch := .settling, settled := true, held := #v[false, true, false, false] }

theorem test_witness_ADemandIssueComposesAndAccounts :
    DemandIssue (rewriting inRun) .rewriteIssue 0 Request.reset true (.rewrite 0 0) 0x080000 ∧
    DemandIssue committed .demandCommitIssue 0 (Request.ofRecord (zeros.set 0 3)) false .head 0x080000 ∧
    HillStartOpens inRun 0 { ask .drive with gradient := 110 } ∧ ¬ HillStartOpens inRun 0 (ask .drive) ∧
    LatchConfirmed allButHeld 0 (ask .hold) ∧
    ¬ LatchConfirmed (holding { Hold.reset with latch := .settling, settled := true }) 0 (ask .hold) ∧
    (DemandIssue (rewriting allButHeld) .rewriteIssue 0 Request.reset true (.rewrite 0 0) 0x080000 ∧
      LatchConfirmed (rewriting allButHeld) 0 Request.reset) ∧
    tram.counts 0 = true ∧ (Request.ofRecord (zeros.set 0 3)).mode = .hold ∧ (ask .drive).mode ≠ .hold ∧
    (tram.axleAt 0 .a = some 0 ∧ tram.axleAt 0 .b = some 1 ∧ tram.axleAt 0 .a ≠ some 2 ∧ tram.axleAt 0 .b ≠ some 2) := by
  unfold HillStartOpens LatchConfirmed
  refine ⟨⟨by decide, .inl ⟨rfl, by decide +kernel, by decide +kernel, rfl, rfl, by decide +kernel⟩⟩,
    ⟨by decide, .inr ⟨rfl, by decide +kernel, rfl, rfl, _, _, rfl, rfl, rfl, by decide +kernel, rfl⟩⟩, by decide +kernel,
    by decide +kernel, by decide +kernel, by decide +kernel,
    ⟨⟨by decide, .inl ⟨rfl, by decide +kernel, by decide +kernel, rfl, rfl, by decide +kernel⟩⟩, by decide +kernel⟩,
    by decide +kernel, by decide +kernel, by decide, by decide +kernel⟩

/-- An address of bogie 1's demand record, axle 3's speed record and bogie 1's feedback record, each in one window. -/
theorem test_witness_ARecordLiesInOneWindow :
    (OnlyCovers tram 0 0x080010 ∧ (1 : BogieNo).val = indexAt tram 0 0x080010 ∧ byteAt tram.windows[0] 4 = 1 ∧
      ((0x080010 : Address).toNat - baseAt tram 0) % 16 = 0 ∧ ∀ v, HoldsRecord tram 1 v (1 : BogieNo).val → v = 0) ∧
    (OnlyCovers tram 1 0x080070 ∧ (3 : AxleNo).val = indexAt tram 1 0x080070) ∧
    (OnlyCovers tram 2 0x080090 ∧ (1 : BogieNo).val = indexAt tram 2 0x080090) := by
  unfold OnlyCovers Covers HoldsRecord
  decide +kernel

theorem test_witness_ARecordIssueFillsThePartOwnedBytes :
    (headMayIssue (queued [entry (.speedRecord zeros) 0x080040] inRun).emission = true ∧
      (queued [entry (.speedRecord zeros) 0x080040] inRun).emission.queue.head? =
        some (entry (.speedRecord zeros) 0x080040) ∧ (entry (.speedRecord zeros) 0x080040).kind = .speedRecord zeros) ∧
    (headMayIssue (queued [entry (.feedbackRecord zeros) 0x080080] inRun).emission = true ∧
      (entry (.feedbackRecord zeros) 0x080080).kind = .feedbackRecord zeros) ∧
    (14 : Fin 16).val ∈ [0, 1, 2, 4, 5, 14] := by decide +kernel

theorem test_witness_APassIssuePresentsTheMastersAccess :
    headMayIssue (queued [entry (.passRead .half) 0x123456] inRun).emission = true ∧
      (queued [entry (.passRead .half) 0x123456] inRun).emission.queue.head? = some (entry (.passRead .half) 0x123456) ∧
      (entry (.passRead .half) 0x123456).kind = .passRead .half ∧
      (entry (.passWrite .byte 7) 0x123456).kind = .passWrite .byte 7 := by decide +kernel

theorem test_witness_TheComposerTakesTheFirstThatApplies :
    inFallback.control.mode = .fallback ∧
      (inRun.control.mode ≠ .fallback ∧ (holding { Hold.reset with latch := .latched }).hold.latch ≠ .clear) ∧
      (inRun.hold.latch = .clear ∧ (late inRun).supervision[(0 : BogieNo)].late = true) ∧
      (inRun.supervision[(0 : BogieNo)].late = false ∧ (ask .coast).mode = .coast ∧ (ask .drive).mode = .drive ∧
        (ask .brake).mode = .brake ∧ (ask .hold).mode = .hold) := by decide +kernel

/-- Axle 0 in an adhesion state. -/
def axleIs (x : AdhesionState) : State :=
  withAxle
    (fun y =>
      { y with
        state := x
        slipEntry := some 0
        recoverEntry := some 0 }) inRun

theorem test_witness_AShapedMotorIsTheSmallestOfThree :
    tram.axleAt 2 .a = none ∧ Request.isolates { ask .drive with isolateB := true } .b = true ∧
      (tram.axleAt 1 .b = some 3 ∧ (ask .drive).isolates .b = false) ∧
      inRun.axles[(0 : AxleNo)].persistent = false ∧
      (withAxle (fun x => { x with persistent := true }) inRun).axles[(0 : AxleNo)].persistent = true ∧
      (∀ x : AdhesionState, (axleIs x).axles[(0 : AxleNo)].state = x) ∧
      (axleIs .recover).axles[(0 : AxleNo)].recoverEntry = some 0 := by
  refine ⟨by decide +kernel, by decide +kernel, by decide +kernel, by decide +kernel, by decide +kernel, ?_,
    by decide +kernel⟩
  intro x
  cases x <;> decide +kernel

theorem test_witness_TheBlendSharesAddUp :
    (bogieSlips inRun 0 = false ∧ bogieSlips (axleIs .slip) 0 = true) ∧ eligible inRun 0 (ask .brake) .a = false ∧
      (tram.axleAt 0 .a = some 0 ∧
        eligible { axleIs .recover with intake := { vref := some 300, elapsed := 0 } } 0 (ask .brake) .a = true) ∧
      (inRun.feedback[(0 : BogieNo)].latest = none ∧ inRun.feedback[(0 : BogieNo)].freshness = none) ∧
      (∃ x : Feedback, ∃ f, x.latest = some f ∧ x.freshness.isSome = true ∧ f.controller = .ready) := by
  refine ⟨by decide +kernel, by decide +kernel, by decide +kernel, by decide +kernel,
    ⟨{ Feedback.reset with latest := some (FeedbackValues.ofRecord zeros), freshness := some 0 }, _, rfl, rfl, rfl⟩⟩

theorem test_witness_CommandsStayWithinTheirMaxima :
    tram.persistentCap ≤ 32767 ∧ tram.slideRelease 0 ≤ 32767 ∧ tram.holdEffort 0 ≤ tram.frictionMaximum 0 ∧
      tram.fallbackEffort 0 ≤ tram.frictionMaximum 0 ∧ tram.axleAt 0 .a = some 0 ∧ tram.axleAt 0 .b = some 1 ∧
      tram.axleAt 2 .a = none ∧ tram.axleAt 2 .b = none := by decide +kernel

theorem test_witness_TheEmittedRecordIsFilledAsTheTableSays :
    (sandTimer .on .clear).sand.sanders[(0 : BogieNo)].state = .on ∧
      (sandTimer .dwell .clear).sand.sanders[(0 : BogieNo)].state = .dwell ∧
      (inRun.sand.sanders[(0 : BogieNo)].state ≠ .on ∧ inRun.sand.sanders[(0 : BogieNo)].state ≠ .dwell) := by
  decide +kernel

/-! ### Witnesses: the D-port -/

theorem test_witness_AnAckCarriesABracketedBurstOn :
    (∀ k : Fin 5, (flying (burst .head k) inRun).emission.inFlight = some (.burst .head 0x080000 zeros k 0)) ∧
      (flying (burst (.rewrite 0 0) 4) inRun).emission.inFlight = some (.burst (.rewrite 0 0) 0x080000 zeros 4 0) ∧
      (flying (burst .head 4) committed).emission.queue = entry (.demandCommit (zeros.set 0 3)) 0x080000 :: [] := by
  refine ⟨fun _ => rfl, rfl, rfl⟩

theorem test_witness_AnAckEndsAnAccess :
    ((flying (.access 0) (queued [entry (.pageRead .word) 0x03FC40] inRun)).emission.inFlight = some (.access 0) ∧
      (flying (.access 0) (queued [entry (.pageRead .word) 0x03FC40] inRun)).emission.queue =
        entry (.pageRead .word) 0x03FC40 :: []) ∧
    ((entry (.passRead .byte) 0x000001).kind = .passRead .byte ∧ inRun.overlay.fixed = none ∧
      pageOffset inRun 0x000001 = none) ∧
    (pageOffset inRun 0x03FC40 = some 0x40 ∧ 3 < AccessSize.word.bytes) ∧
    (entry (.passWrite .byte 7) 0x000001).kind = .passWrite .byte 7 ∧
    ({ inRun.overlay with fixed := some [none] } : Overlay).fixed = some [none] := by decide +kernel

theorem test_witness_AFirstFailureRestartsOrAnswersErr :
    (FailsFlight (flying (burst (.rewrite 1 0) 2) inRun) .dPortErr ∧
      (flying (burst (.rewrite 1 0) 2) inRun).emission.inFlight =
        some (.burst (.rewrite 1 0) 0x080000 zeros 2 0)) ∧
    (FailsFlight (flying (burst .head 4) committed) .dPortTimeout ∧
      (flying (burst .head 4) committed).emission.queue = entry (.demandCommit (zeros.set 0 3)) 0x080000 :: [] ∧
      (entry (.demandCommit (zeros.set 0 3)) 0x080000).retries = 0) ∧
    (FailsFlight (flying (.access 0) (queued [entry (.passRead .word) 0] inRun)) .dPortErr ∧
      (flying (.access 0) (queued [entry (.passRead .word) 0] inRun)).emission.queue =
        entry (.passRead .word) 0 :: []) ∧
    (∀ f, (flying (burst .head 4) committed).emission.inFlight = some f → f.start ≠ 1) ∧
    64 ≤ interval inRun.timeBase 0 :=
  ⟨⟨⟨_, rfl, .inl rfl⟩, rfl⟩, ⟨⟨_, rfl, .inr (.inr ⟨rfl, by decide +kernel⟩)⟩, rfl, rfl⟩, ⟨⟨_, rfl, .inl rfl⟩, rfl⟩,
    fun _ h => by cases h; decide, by decide +kernel⟩

/-- R136: a burst restarts at its timeout, and the answer to the access that failed leaves it at write 1. -/
theorem test_a_late_answer_is_disregarded :
    answeredFlight (failFlight (burst (.rewrite 1 0) 2) (flying (burst (.rewrite 1 0) 2) inRun)) (some 0) = none ∧
      (failFlight (burst (.rewrite 1 0) 2) (flying (burst (.rewrite 1 0) 2) inRun)).emission.inFlight =
        some (.burst (.rewrite 1 1) 0x080000 zeros 0 1000000) := by decide +kernel

/-- The second attempt of the head entry's burst is in flight. -/
def secondAttempt (k : EntryKind) (s : State) : State :=
  flying (burst .head 0) (queued [{ entry k 0x080000 with retries := 1 }] s)

theorem test_witness_AFinalFailureRaisesMemoryFault :
    (FailsFlight (flying (burst (.rewrite 0 1) 0) inRun) .dPortErr ∧
      (flying (burst (.rewrite 0 1) 0) inRun).control.mode = .run) ∧
    (FailsFlight (secondAttempt (.demandCommit zeros) inRun) .dPortTimeout ∧
      (secondAttempt (.demandCommit zeros) inRun).emission.queue =
        { entry (.demandCommit zeros) 0x080000 with retries := 1 } :: [] ∧
      (entry (.demandCommit zeros) 0x080000).isDemand = true) ∧
    (FailsFlight (secondAttempt (.speedRecord zeros) inRun) .dPortErr ∧
      (entry (.speedRecord zeros) 0x080000).isDemand = false) ∧
    (FailsFlight (flying (burst (.rewrite 0 1) 0) inFallback) .dPortErr ∧ inFallback.control.mode ≠ .run) :=
  ⟨⟨⟨_, rfl, .inl rfl⟩, rfl⟩, ⟨⟨_, rfl, .inr (.inr ⟨rfl, by decide +kernel⟩)⟩, rfl, rfl⟩, ⟨⟨_, rfl, .inl rfl⟩, rfl⟩,
    ⟨⟨_, rfl, .inl rfl⟩, by decide⟩⟩

/-! ### Witnesses: the reference speed, the adhesion states and the notices -/

theorem test_witness_TheCandidateSpeedFollowsTheVehicleMode :
    (∃ b, tram.counts b = true ∧ ((standingBoth (ask .brake) inRun).standing b).mode = .brake) ∧
    ((∀ b, tram.counts b = true → ((standingBoth (ask .drive) inRun).standing b).mode ≠ .brake) ∧
      ∃ b, tram.counts b = true ∧ ((standingBoth (ask .drive) inRun).standing b).mode = .drive) ∧
    (∀ b, tram.counts b = true → (inRun.standing b).mode = .coast ∨ (inRun.standing b).mode = .hold) := by
  decide +kernel

/-- A reference unit at 100 with an elapsed count. -/
def reference (n : Nat) : Intake where
  vref := some 100
  elapsed := n

theorem test_witness_VrefMovesWithinTheSlope :
    Intake.reset.vref = none ∧ (reference 5).vref = some 100 ∧
      ((99 - 100) + (100 - 99) ≤ 200 * (reference 500).elapsed / 100000) ∧
      (200 * (reference 500).elapsed / 100000 < (102 - 100) + (100 - 102) ∧
        1 ≤ 200 * (reference 500).elapsed / 100000) ∧
      200 * (reference 499).elapsed / 100000 = 0 ∧
      (reference 16777214).elapsed < 16777215 ∧
      (reference 16777215).elapsed = 16777215 := by decide +kernel

theorem test_witness_TheThresholdsAndTheEstimator :
    (Axle.reset.fill < 8 ∧ 8 ≤ ({ Axle.reset with fill := 8 } : Axle).fill) ∧
      ∀ m : DemandMode, ((standingBoth (ask m) inRun).standing (tram.axleBogie 0)).mode = m := by
  refine ⟨by decide, fun m => ?_⟩
  cases m <;> decide +kernel

/-- Axle 0 in a state with Vref 1000 and a slip, its bogie in DRIVE. -/
def slipping (x : AdhesionState) (slip : Int) : State :=
  standingBoth (ask .drive) (moving 1000 (withAxle (fun y => { y with slip := slip }) (axleIs x)))

theorem test_witness_AnEvaluatedSampleMakesItsTransition :
    ((slipping .grip 160).axles[(0 : AxleNo)].state = .grip ∧ slipCondition (slipping .grip 160) 0 = true) ∧
    (slipCondition (slipping .grip 60) 0 = false ∧
      creepThreshold (slipping .grip 60) ≤ axleMagnitude (slipping .grip 60) 0) ∧
    axleMagnitude (slipping .grip 58) 0 < creepThreshold (slipping .grip 58) ∧
    (slipCondition (slipping .creep 38) 0 = false ∧
      axleMagnitude (slipping .creep 38) 0 < creepThreshold (slipping .creep 38) - tram.hysteresis) ∧
    creepThreshold (slipping .creep 39) - tram.hysteresis ≤ axleMagnitude (slipping .creep 39) 0 ∧
    ((slipping .slip 58).axles[(0 : AxleNo)].slipEntry = some 0 ∧
      tram.slipDwell ≤ interval (slipping .slip 58).timeBase 0 ∧
      axleMagnitude (slipping .slip 58) 0 < creepThreshold (slipping .slip 58) ∧
      -(tram.accelerationThreshold : Int) ≤ (slipping .slip 58).axles[(0 : AxleNo)].acceleration ∧
      (slipping .slip 58).axles[(0 : AxleNo)].acceleration ≤ (tram.accelerationThreshold : Int)) ∧
    ¬ axleMagnitude (slipping .slip 59) 0 < creepThreshold (slipping .slip 59) ∧
    (slipCondition (slipping .recover 0) 0 = false ∧ (slipping .stale 0).axles[(0 : AxleNo)].state = .stale) := by
  refine ⟨?_, ?_, ?_, ?_, ?_, ?_, ?_, ?_⟩ <;> decide +kernel

theorem test_witness_FourSlipsInTheWindowArePersistent : ([1, 2, 3] : List Word).length < 4 := by decide

/-- The latch in a state with Vref at a value. -/
def latchedAt (l : Latch) (v : Nat) : State :=
  moving v (holding { Hold.reset with latch := l })

theorem test_witness_ALatchingTakesTheTram :
    (inRun.active = true ∧ tram.counts 1 = true) ∧ (latchedAt .latched 29).active = true ∧
      (evaluateVref 0 (latchedAt .latched 29)).vref < tram.standstillSpeed ∧
      tram.standstillSpeed ≤ (evaluateVref 0 (latchedAt .latched 30)).vref ∧
      (evaluateVref 0 (latchedAt .settling 29)).vref < tram.standstillSpeed ∧
      tram.standstillSpeed ≤ (evaluateVref 0 (latchedAt .settling 30)).vref ∧
      ∀ l : Latch, ∀ v : Nat, (latchedAt l v).hold.latch = l :=
  ⟨by decide +kernel, by decide +kernel, by decide +kernel, by decide +kernel, by decide +kernel, by decide +kernel,
    fun _ _ => rfl⟩

theorem test_witness_ARaiseCountsAndTheTopIsTheLowestCode :
    inRun.notices[NoticeKind.slipEntry.slot].pending = false ∧
      (raise .slipEntry 2 inRun).notices[NoticeKind.slipEntry.slot].pending = true ∧
      (∀ j : Fin 15, j < NoticeKind.slipEntry.slot → (raise .slipEntry 2 inRun).notices[j].pending = false) := by
  decide +kernel

/-! ### Witnesses: invariants -/

/-- The part after power-on with a memory answer waiting. -/
def ready : State :=
  { State.reset with pending := [.dPortTimeout] }

/-- A state that has every invariant and a next step: the hypotheses of the six statements `EveryStepKeeps...`. -/
theorem test_witness_EveryStepKeeps :
    LinesSettled ready ∧ NoticesSound ready ∧ EmptySound ready ∧ RewritesSound ready ∧ TimersSound ready ∧
      GateSound ready ∧ LatchSound ready ∧ QueueSound ready ∧ ArbiterSound ready.emission ∧
      ∃ t, step ready = .next t := by
  refine ⟨?_, ?_, ?_, ?_, ?_, ?_, ?_, ?_, ?_, ⟨_, rfl⟩⟩
  · unfold LinesSettled; decide +kernel
  · unfold NoticesSound; decide +kernel
  · unfold EmptySound; decide +kernel
  · unfold RewritesSound; decide +kernel
  · unfold TimersSound; decide +kernel
  · unfold GateSound; decide +kernel
  · unfold LatchSound; decide +kernel
  · exact ⟨by decide, by decide, by simp [ready, State.reset, Bus.idle, Emission.reset], trivial⟩
  · unfold ArbiterSound; decide +kernel

/-! ### Numbers of the worked sequences (12_) -/

/-- 12.2: the grade effort of 42 t on 98 per mille. -/
theorem test_grade_effort_on_the_climb : gradeEffort (standingBoth (ask .drive) inRun) = 403 := by decide +kernel

/-- R48: the arithmetic shift rounds toward minus infinity. -/
theorem test_the_estimator_rounds_down : Int.fdiv (-108544) (2 ^ 12) = -27 := by decide

/-- 12.3: bogie 0 brakes with 1400 from Vref 2000, slot B's axle in a state. -/
def braking (x : AdhesionState) : State :=
  { moving 2000 inRun with
    axles := Vector.ofFn fun n : Fin 8 => { inRun.axles[n] with state := if n = 1 then x else .grip }
    feedback :=
      inRun.feedback.set 0
        { Feedback.reset with
          latest := some
            { controller := .ready
              availableA := 600
              availableB := 500
              achievedA := 0
              achievedB := 0 }
          freshness := some 1000000 } }

theorem test_blend_with_both_axles :
    blend (braking .grip) 0 { ask .brake with brake := 1400 } =
      { electric := 1100, shareA := 600, shareB := 500, friction := 300, shortfall := 0 } := by decide +kernel

theorem test_blend_with_a_sliding_axle :
    blend (braking .slip) 0 { ask .brake with brake := 1400 } =
      { electric := 600, shareA := 600, shareB := 0, friction := 400, shortfall := 400 } := by decide +kernel

/-- 12.4: a LATE bogie's record commands the fallback effort; here its axles are STALE and the gate is CLOSED too. -/
theorem test_a_late_bogie_is_braked :
    compose (late inRun) 0 (ask .drive) = Commands.frictionOnly 700 ∧
      (emittedRecord (late inRun) 0 (ask .drive) (Commands.frictionOnly 700))[11] = 0x4C ∧
      (emittedRecord (late inRun) 0 (ask .drive) (Commands.frictionOnly 700))[8] = 0xBC := by decide +kernel

/-- 12.5: the first write of a burst leaves the check equal to the sequence, the fifth its complement. -/
theorem test_a_bracketed_burst :
    (burstWrite 0x080010 (zeros.set 14 0x22) 0).write = some 0x22220000 ∧
      (burstWrite 0x080010 (zeros.set 14 0x22) 4).write = some 0xDD220000 ∧
      (burstWrite 0x080010 (zeros.set 14 0x22) 4).address = 0x08001C := by decide +kernel

/-- Table 11-8: the status of the part in RUN: mode 1, gate 1, queue room 6, stale mask 0x0F. -/
theorem test_the_device_status_in_run :
    (deviceStatus inRun).take 12 = [1, 0, 0, 0, 1, 6, 0, 0, 0, 0x0F, 0, 0] := by decide +kernel

/-! ### A few commands on small states -/

theorem test_a_speed_record_is_answered_and_queued :
    (presentWrite 1 0x08004E .half 5 inRun).bus.answer = some { tag := 1, answer := .ack, data := none } ∧
      (presentWrite 1 0x08004E .half 5 inRun).emission.queue.length = 1 ∧
      (presentWrite 1 0x08004E .half 5 inRun).axles[(0 : AxleNo)].state = .recover ∧
      (presentWrite 1 0x08004E .half 5 inRun).intake.vref = some 0 := by decide +kernel

theorem test_a_demand_commit_holds_the_bus :
    (presentWrite 0 0x08000E .half 5 inRun).bus.access.isSome = true ∧
      (presentWrite 0 0x08000E .half 5 inRun).supervision[(0 : BogieNo)].timer = some 1000000 := by decide +kernel

theorem test_a_run_request_enters_run :
    (presentWrite 0 0x03FC20 .byte 1 inSetup).control.mode = .run ∧
      (presentWrite 0 0x03FC20 .byte 1 State.reset).control.rejectReason = 1 := by decide +kernel

theorem test_a_refill_and_a_unit :
    (presentWrite 0 0x03FC24 .word 0x0BB80BB8 inSetup).sand.sanders[(1 : BogieNo)].budget = 3000 ∧
      (budgetFall 0 (used 3000 inRun)).sand.sanders[(0 : BogieNo)].budget = 2999 := by decide +kernel

theorem test_a_read_returns_its_overlay :
    readData (entry (.pageRead .word) 0x03FC40) 0xFFFFFFFF inRun = some [0, 0, 8, 5] ∧
      readData (entry (.passRead .half) 0x000100) 0x1234 inRun = some [0x34, 0x12] := by decide +kernel

end Sys2Proof.Machine.Tests
end

section
/-! PROOFS. Scope (00_scope.md): which events of the part are due, and what a step with no command waiting does. -/

namespace Sys2Proof.Machine

/-! ### What an event being due means -/

/-- A timer is due exactly when it runs and its interval has elapsed. -/
theorem timerDue_iff (t : Timer) (now : Word) (micros : Nat) :
    timerDue t now micros = true ↔ ∃ t0, t = some t0 ∧ micros ≤ interval now t0 := by
  cases t <;> simp [timerDue]

theorem portTimeoutDue_iff (s : State) :
    portTimeoutDue s = true ↔ ∃ f, s.emission.inFlight = some f ∧ 64 ≤ interval s.timeBase f.start := by
  unfold portTimeoutDue
  cases s.emission.inFlight <;> simp

theorem issuingHead_some (s : State) (x : Entry) :
    issuingHead s = some x ↔ headMayIssue s.emission = true ∧ s.emission.queue.head? = some x := by
  unfold issuingHead
  split <;> simp [*]

/-! ### The command that issues an entry -/

theorem issuedBy_demandCommit (x : Entry) : x.issuedBy = .demandCommitIssue ↔ ∃ r, x.kind = .demandCommit r := by
  unfold Entry.issuedBy
  cases x.kind <;> simp

theorem issuedBy_recordBurst (x : Entry) :
    x.issuedBy = .recordBurstIssue ↔ ∃ r, x.kind = .speedRecord r ∨ x.kind = .feedbackRecord r := by
  unfold Entry.issuedBy
  cases x.kind <;> simp

theorem issuedBy_passAccess (x : Entry) : x.issuedBy = .passAccessIssue ↔ ∃ p, x.portAccess = some p := by
  unfold Entry.issuedBy Entry.portAccess
  cases x.kind <;> simp

/-- No command but these three issues an entry. -/
theorem issuedBy_ne (x : Entry) {c : Instr} (h1 : c ≠ .demandCommitIssue) (h2 : c ≠ .recordBurstIssue)
    (h3 : c ≠ .passAccessIssue) : x.issuedBy ≠ c := by
  unfold Entry.issuedBy
  cases x.kind with
  | demandCommit => exact h1.symm
  | speedRecord | feedbackRecord => exact h2.symm
  | passRead | passWrite | pageRead | pageWrite => exact h3.symm

/-! ### The members of the list of due events -/

theorem mem_dueIf (due : Bool) (c d : Instr) : c ∈ dueIf due d ↔ due = true ∧ c = d := by
  cases due <;> simp [dueIf]

theorem mem_upTo8 (n : AxleNo) : n ∈ upTo8 := by fin_cases n <;> decide

theorem mem_upTo4 (b : BogieNo) : b ∈ upTo4 := by fin_cases b <;> decide

theorem mem_dueExpiries (s : State) (c : Instr) : c ∈ dueExpiries s ↔
    (∃ n, stalenessDue s n = true ∧ c = .stalenessExpiry n) ∨ (∃ b, freshnessDue s b = true ∧ c = .freshnessExpiry b) ∨
      (∃ b, demandTimerDue s b = true ∧ c = .demandTimerExpiry b) ∨
      (releaseWaitDue s = true ∧ c = .releaseWaitExpiry) ∨ (settlingDue s = true ∧ c = .settlingTimerExpiry) ∨
      (windowDue s = true ∧ c = .windowTimerExpiry) := by
  simp only [dueExpiries, List.mem_append, List.mem_flatMap, mem_dueIf, mem_upTo8, mem_upTo4, true_and, or_assoc]

theorem mem_dueSanderEvents (s : State) (c : Instr) : c ∈ dueSanderEvents s ↔
    (∃ b, dwellDue s b = true ∧ c = .dwellTimerExpiry b) ∨ (∃ b, runDue s b = true ∧ c = .runTimerExpiry b) ∨
      (∃ b, pauseDue s b = true ∧ c = .pauseTimerExpiry b) ∨ (∃ b, unitDue s b = true ∧ c = .budgetUnitFall b) := by
  simp only [dueSanderEvents, List.mem_append, List.mem_flatMap, mem_dueIf, mem_upTo4, true_and, or_assoc]

theorem mem_duePortEvents (s : State) (c : Instr) : c ∈ duePortEvents s ↔
    (c = .rewriteIssue ∧ ∃ b, issuingRewrite s.emission = some b) ∨
      (∃ x, issuingHead s = some x ∧ x.issuedBy = c) ∨ (portTimeoutDue s = true ∧ c = .dPortTimeout) := by
  unfold duePortEvents
  rw [List.mem_append, List.mem_append, mem_dueIf, mem_dueIf, Option.isSome_iff_exists]
  cases issuingHead s with
  | none => simp [and_comm]
  | some x => simp [and_comm, or_assoc, eq_comm (a := c) (b := x.issuedBy)]

theorem mem_dueEvents (s : State) (c : Instr) :
    c ∈ dueEvents s ↔ c ∈ dueExpiries s ∨ c ∈ dueSanderEvents s ∨ c ∈ duePortEvents s := by
  simp only [dueEvents, List.mem_append, or_assoc]

/-! ### Each event's own condition -/

/-- What makes an event of the part due, command by command; the commands that others send never are. -/
def OwnEventDue (s : State) : Instr → Prop
  | .stalenessExpiry n => stalenessDue s n = true
  | .freshnessExpiry b => freshnessDue s b = true
  | .demandTimerExpiry b => demandTimerDue s b = true
  | .releaseWaitExpiry => releaseWaitDue s = true
  | .settlingTimerExpiry => settlingDue s = true
  | .windowTimerExpiry => windowDue s = true
  | .dwellTimerExpiry b => dwellDue s b = true
  | .runTimerExpiry b => runDue s b = true
  | .pauseTimerExpiry b => pauseDue s b = true
  | .budgetUnitFall b => unitDue s b = true
  | .rewriteIssue => ∃ b, issuingRewrite s.emission = some b
  | .demandCommitIssue => ∃ x, issuingHead s = some x ∧ x.issuedBy = .demandCommitIssue
  | .recordBurstIssue => ∃ x, issuingHead s = some x ∧ x.issuedBy = .recordBurstIssue
  | .passAccessIssue => ∃ x, issuingHead s = some x ∧ x.issuedBy = .passAccessIssue
  | .dPortTimeout => portTimeoutDue s = true
  | _ => False

/-- The list of due events holds each event of the part exactly when that event is due, and nothing else. -/
theorem mem_dueEvents_iff (s : State) (c : Instr) : c ∈ dueEvents s ↔ OwnEventDue s c := by
  rw [mem_dueEvents, mem_dueExpiries, mem_dueSanderEvents, mem_duePortEvents]
  cases c
  case demandCommitIssue | recordBurstIssue | passAccessIssue => simp [OwnEventDue]
  all_goals simp [OwnEventDue, issuedBy_ne]

section
variable (s : State)

theorem demandTimerDue_iff (b : BogieNo) : demandTimerDue s b = true ↔
    s.active = true ∧ s.supervision[b].late = false ∧
      ∃ t, s.supervision[b].timer = some t ∧ s.shadow.demandTimeout ≤ interval s.timeBase t := by
  simp only [demandTimerDue, Bool.and_eq_true, Bool.not_eq_true', timerDue_iff, and_assoc]

theorem settlingDue_iff : settlingDue s = true ↔ s.hold.latch = .settling ∧
    ∃ t, s.hold.settling = some t ∧ s.shadow.rollbackClearTime ≤ interval s.timeBase t := by
  simp only [settlingDue, Bool.and_eq_true, decide_eq_true_eq, timerDue_iff]

theorem dwellDue_iff (b : BogieNo) : dwellDue s b = true ↔ s.sand.sanders[b].state = .dwell ∧
    ∃ t, s.sand.sanders[b].dwellTimer = some t ∧ s.shadow.sandDwell ≤ interval s.timeBase t := by
  simp only [dwellDue, Bool.and_eq_true, decide_eq_true_eq, timerDue_iff]

theorem runDue_iff (b : BogieNo) : runDue s b = true ↔
    (s.sand.sanders[b].state = .on ∨ s.sand.sanders[b].state = .dwell) ∧
      ∃ t, s.sand.sanders[b].runTimer = some t ∧ s.shadow.maximumSand ≤ interval s.timeBase t := by
  simp only [runDue, Bool.and_eq_true, Bool.or_eq_true, decide_eq_true_eq, timerDue_iff]

theorem pauseDue_iff (b : BogieNo) : pauseDue s b = true ↔ s.sand.sanders[b].state = .pause ∧
    ∃ t, s.sand.sanders[b].pauseTimer = some t ∧ s.shadow.sandPause ≤ interval s.timeBase t := by
  simp only [pauseDue, Bool.and_eq_true, decide_eq_true_eq, timerDue_iff]

theorem unitDue_iff (b : BogieNo) : unitDue s b = true ↔ 10000 ≤ s.sand.sanders[b].accumulator := by
  simp only [unitDue, decide_eq_true_eq]

/-- The head entry issues by a command exactly when the arbiter has decided for it and it is of the command's kind. -/
theorem headIssuedBy_iff (c : Instr) : (∃ x, issuingHead s = some x ∧ x.issuedBy = c) ↔
    headMayIssue s.emission = true ∧ ∃ x, s.emission.queue.head? = some x ∧ x.issuedBy = c := by
  simp only [issuingHead_some, and_assoc, exists_and_left]

/-! ### A microsecond -/

theorem tick_intake : (tick s).intake = if s.active = true then s.intake.tick else s.intake := rfl

/-- A microsecond raises the accumulator of a sander in ON or DWELL outside SETUP, and leaves the rest of its record
(R116). -/
theorem tick_sander (b : BogieNo) : (tick s).sand.sanders[b] =
    { s.sand.sanders[b] with
      accumulator :=
        if s.active = true ∧ (s.sand.sanders[b].state = .on ∨ s.sand.sanders[b].state = .dwell) then
          s.sand.sanders[b].accumulator + 1
        else s.sand.sanders[b].accumulator } := by
  unfold tick
  by_cases h : s.active = true
  · simp [h, Sander.tick]
  · simp [h]

/-- A microsecond changes the time base, the reference unit and the sanders' records alone. -/
theorem tick_frame : tick s =
    { s with
      timeBase := (tick s).timeBase
      intake := (tick s).intake
      sand := { s.sand with sanders := (tick s).sand.sanders } } := by
  unfold tick
  cases s.active <;> rfl

end

/-- Settles O2: the idle step by the list of due events, each event by its own condition, and the microsecond block by
block. -/
theorem anIdleStepTakesADueEventOrAMicrosecond : Obligations.AnIdleStepTakesADueEventOrAMicrosecond := by
  refine ⟨fun s hp => ⟨fun hd => ?_, fun hd => ?_⟩, fun s => ?_,
    fun s => ⟨rfl, tick_intake s, tick_sander s, tick_frame s⟩⟩
  · rw [step_idle s hp, idle_none s hd]
  · rw [step_idle s hp]
    exact idle_some s hd
  · have due (c : Instr) := mem_dueEvents_iff s c
    refine ⟨fun n => (due _).trans (timerDue_iff _ _ _), fun b => (due _).trans (timerDue_iff _ _ _),
      fun b => (due _).trans (demandTimerDue_iff s b), (due _).trans (timerDue_iff _ _ _),
      (due _).trans (settlingDue_iff s), (due _).trans (timerDue_iff _ _ _), fun b => (due _).trans (dwellDue_iff s b),
      fun b => (due _).trans (runDue_iff s b), fun b => (due _).trans (pauseDue_iff s b),
      (due _).trans (portTimeoutDue_iff s), fun b => (due _).trans (unitDue_iff s b), due _,
      (due _).trans ((headIssuedBy_iff s _).trans ?_), (due _).trans ((headIssuedBy_iff s _).trans ?_),
      (due _).trans ((headIssuedBy_iff s _).trans ?_)⟩
    · simp only [issuedBy_demandCommit, exists_and_left]
    · simp only [issuedBy_recordBurst, exists_and_left]
    · simp only [issuedBy_passAccess, exists_and_left]

end Sys2Proof.Machine
end

section
/-! PROOFS. Scope (00_scope.md): commands take no time and leave the waiting commands. -/

namespace Sys2Proof.Machine

/-- The second state has the first's waiting commands, count of races and time base: what no command but POWER_ON
changes, since commands are instants (log 1). -/
structure SameClock (s t : State) : Prop where
  pending : t.pending = s.pending
  races : t.races = s.races
  timeBase : t.timeBase = s.timeBase

theorem SameClock.refl (s : State) : SameClock s s := ⟨rfl, rfl, rfl⟩

theorem SameClock.trans {s t u : State} (h : SameClock s t) (k : SameClock t u) : SameClock s u :=
  ⟨k.pending.trans h.pending, k.races.trans h.races, k.timeBase.trans h.timeBase⟩

theorem MiddleChange.sameClock {s t : State} (h : MiddleChange s t) : SameClock s t :=
  ⟨h.pending, h.races, h.timeBase⟩

/-- An event of the part that has not come changes nothing (log 4). -/
theorem SameClock.ifDue {s t : State} (due : Bool) (h : SameClock s t) : SameClock s (if due then t else s) := by
  cases due
  · exact .refl s
  · exact h

/-! ### One block replaced -/

section
variable (s : State)

theorem withControl_sameClock (x : Control) : SameClock s (s.withControl x) := ⟨rfl, rfl, rfl⟩
theorem withShadow_sameClock (x : Shadow) : SameClock s (s.withShadow x) := ⟨rfl, rfl, rfl⟩
theorem withStaging_sameClock (x : Staging) : SameClock s (s.withStaging x) := ⟨rfl, rfl, rfl⟩
theorem withEmission_sameClock (x : Emission) : SameClock s (s.withEmission x) := ⟨rfl, rfl, rfl⟩
theorem withOverlay_sameClock (x : Overlay) : SameClock s (s.withOverlay x) := ⟨rfl, rfl, rfl⟩
theorem settle_sameClock : SameClock s (settle s) := ⟨rfl, rfl, rfl⟩

/-! ### Answers, entries and reports -/

theorem answer_sameClock (tag : Tag) (a : Answer) (data : Option (List Byte)) : SameClock s (answer tag a data s) :=
  ⟨rfl, rfl, rfl⟩

theorem holdBus_sameClock (x : Access) : SameClock s (holdBus x s) := ⟨rfl, rfl, rfl⟩

theorem raise_sameClock (k : NoticeKind) (i : Nat) : SameClock s (raise k i s) := (raise_middle k i s).sameClock

theorem enqueue_sameClock (x : Entry) : SameClock s (enqueue x s) := withEmission_sameClock _ _

theorem reportWrite_sameClock (tag : Tag) : SameClock s (reportWrite tag s) := withOverlay_sameClock _ _

/-- A report of a read writes the overlay unit alone (R161). The definition is unfolded with no state in its place, so
that the kernel need not evaluate the location of the address. -/
theorem reportRead_overlay (tag : Tag) (a : Address) (z : AccessSize) : ∃ o, reportRead tag a z s = s.withOverlay o := by
  suffices h : ∀ f, f = @reportRead → ∃ o, f tag a z s = s.withOverlay o from h _ rfl
  delta reportRead
  rintro f rfl
  beta_reduce
  rcases enrichedAt s a with _ | ⟨x, address⟩
  · exact ⟨_, rfl⟩
  · exact ⟨_, rfl⟩

/-- A report of a refused read writes the overlay unit alone (R162; log 20); unfolded as `reportRead` is. -/
theorem reportRefusedRead_overlay (tag : Tag) (a : Address) (z : AccessSize) :
    ∃ o, reportRefusedRead tag a z s = s.withOverlay o := by
  suffices h : ∀ f, f = @reportRefusedRead → ∃ o, f tag a z s = s.withOverlay o from h _ rfl
  delta reportRefusedRead
  rintro f rfl
  beta_reduce
  rcases enrichedAt s a with _ | ⟨x, address⟩
  · exact ⟨s.overlay, rfl⟩
  · rcases s.overlay.snapshots[tag] with _ | p
    · exact ⟨s.overlay, rfl⟩
    · simp only
      cases p.holds x address && !p.lastWordCovered a z
      · exact ⟨_, rfl⟩
      · exact ⟨s.overlay, rfl⟩

theorem reportRead_sameClock (tag : Tag) (a : Address) (z : AccessSize) : SameClock s (reportRead tag a z s) := by
  obtain ⟨o, h⟩ := reportRead_overlay s tag a z
  exact h ▸ withOverlay_sameClock s o

theorem reportRefusedRead_sameClock (tag : Tag) (a : Address) (z : AccessSize) :
    SameClock s (reportRefusedRead tag a z s) := by
  obtain ⟨o, h⟩ := reportRefusedRead_overlay s tag a z
  exact h ▸ withOverlay_sameClock s o

/-! ### The treatments of an access -/

theorem takeNonPosted_sameClock (x : Access) (k : EntryKind) : SameClock s (takeNonPosted x k s) :=
  (enqueue_sameClock _ _).trans (holdBus_sameClock _ _)

theorem refuseWrite_sameClock (tag : Tag) (i : Nat) : SameClock s (refuseWrite tag i s) :=
  ((reportWrite_sameClock _ _).trans (raise_sameClock _ _ _)).trans (answer_sameClock _ _ _ _)

theorem rejectCommit_sameClock (tag : Tag) (w : WindowNo) : SameClock s (rejectCommit tag w s) :=
  ((reportWrite_sameClock _ _).trans (raise_sameClock _ _ _)).trans (answer_sameClock _ _ _ _)

theorem acceptCommit_sameClock (x : Access) (p : Place) (r : Record) (k : EntryKind) :
    SameClock s (acceptCommit x p r k s) :=
  ((reportWrite_sameClock _ _).trans (withStaging_sameClock _ _)).trans (enqueue_sameClock _ _)

theorem passWriteTreatment_sameClock (x : Access) (d : Word) : SameClock s (passWriteTreatment x d s) := by
  unfold passWriteTreatment
  split
  · exact answer_sameClock _ _ _ _
  · exact (reportWrite_sameClock _ _).trans (takeNonPosted_sameClock _ _ _)

theorem passReadTreatment_sameClock (x : Access) : SameClock s (passReadTreatment x s) := by
  unfold passReadTreatment
  split
  · exact answer_sameClock _ _ _ _
  · exact (reportRead_sameClock _ _ _ _).trans (takeNonPosted_sameClock _ _ _)

theorem pageReadTreatment_sameClock (x : Access) : SameClock s (pageReadTreatment x s) := by
  unfold pageReadTreatment
  split
  · exact answer_sameClock _ _ _ _
  · exact (reportRead_sameClock _ _ _ _).trans (takeNonPosted_sameClock _ _ _)

theorem stagingTreatment_sameClock (x : Access) (d : Word) (p : Place) : SameClock s (stagingTreatment x d p s) :=
  ((reportWrite_sameClock _ _).trans (withStaging_sameClock _ _)).trans (answer_sameClock _ _ _ _)

/-- A commit is rejected, told to try again, or accepted and applied by its owner, a change in the middle (R16, R17). -/
theorem commitTreatment_sameClock (x : Access) (d : Word) (p : Place) (w : WindowNo) :
    SameClock s (commitTreatment x d p w s) := by
  unfold commitTreatment
  cases p with
  | speed n =>
    simp only [speedCommitTreatment]
    split_ifs
    · exact rejectCommit_sameClock _ _ _
    · exact answer_sameClock _ _ _ _
    · exact ((acceptCommit_sameClock _ _ _ _ _).trans (applySpeed_middle _ _ _).sameClock).trans
        (answer_sameClock _ _ _ _)
  | feedback b =>
    simp only [feedbackCommitTreatment]
    split_ifs
    · exact rejectCommit_sameClock _ _ _
    · exact answer_sameClock _ _ _ _
    · exact ((acceptCommit_sameClock _ _ _ _ _).trans (applyFeedback_middle _ _ _).sameClock).trans
        (answer_sameClock _ _ _ _)
  | demand b =>
    simp only [demandCommitTreatment]
    split_ifs
    · exact rejectCommit_sameClock _ _ _
    · exact answer_sameClock _ _ _ _
    · exact ((acceptCommit_sameClock _ _ _ _ _).trans (applyDemand_middle _ _).sameClock).trans
        (holdBus_sameClock _ _)

/-! ### The mode requests and the actions of a page write -/

theorem rejectMode_sameClock (r : Fin 10) : SameClock s (rejectMode r s) :=
  (withControl_sameClock _ _).trans (raise_sameClock _ _ _)

theorem runEntry_sameClock : SameClock s (runEntry s) := ⟨rfl, rfl, rfl⟩

theorem setupEntry_sameClock : SameClock s (setupEntry s) := ⟨rfl, rfl, rfl⟩

theorem fallbackEntry_sameClock (k : FallbackCause) : SameClock s (fallbackEntry k s) :=
  (withControl_sameClock _ _).trans (MiddleChange.ofSander (fallbackEntry_change k s)).sameClock

theorem requestRun_sameClock : SameClock s (requestRun s) := by
  unfold requestRun
  cases s.control.mode with
  | setup =>
    simp only
    split
    · exact runEntry_sameClock s
    · exact rejectMode_sameClock s _
  | run => exact rejectMode_sameClock s 9
  | fallback => exact rejectMode_sameClock s 9

theorem requestSetup_sameClock : SameClock s (requestSetup s) := by
  unfold requestSetup
  split_ifs
  · exact setupEntry_sameClock s
  · exact rejectMode_sameClock s 8
  · exact .refl s

theorem carriedRefill_sameClock (off : Nat) (z : AccessSize) (d : Word) (b : BogieNo) :
    SameClock s (carriedRefill off z d b s) := by
  unfold carriedRefill
  split
  · exact (refill_middle _ _ _).sameClock
  · exact .refl s

theorem carriedModeRequest_sameClock (off : Nat) (z : AccessSize) (d : Word) :
    SameClock s (carriedModeRequest off z d s) := by
  unfold carriedModeRequest
  split
  · split_ifs
    · exact requestRun_sameClock s
    · exact requestSetup_sameClock s
    · exact .refl s
  · exact .refl s

theorem controlActions_sameClock (off : Nat) (z : AccessSize) (d : Word) : SameClock s (controlActions off z d s) := by
  unfold controlActions
  simp only [foldl_upTo4]
  have flags := ((clearPersistentFlags_middle ((coveredByte off z d 1).getD 0) s).trans
    (acknowledge_middle (carriedAcknowledge off z d) _)).sameClock
  exact ((((flags.trans (carriedRefill_sameClock _ _ _ _ 0)).trans (carriedRefill_sameClock _ _ _ _ 1)).trans
    (carriedRefill_sameClock _ _ _ _ 2)).trans (carriedRefill_sameClock _ _ _ _ 3)).trans
      (carriedModeRequest_sameClock _ _ _ _)

theorem pageActions_sameClock (off : Nat) (z : AccessSize) (d : Word) : SameClock s (pageActions off z d s) := by
  unfold pageActions
  split_ifs
  · exact controlActions_sameClock _ _ _ _
  · exact withShadow_sameClock _ _
  · exact .refl s

theorem pageWriteTreatment_sameClock (x : Access) (d : Word) (off : Nat) :
    SameClock s (pageWriteTreatment x d off s) := by
  unfold pageWriteTreatment
  split
  · exact refuseWrite_sameClock _ _ _
  · exact (reportWrite_sameClock _ _).trans (answer_sameClock _ _ _ _)
  · split
    · exact answer_sameClock _ _ _ _
    · exact ((reportWrite_sameClock _ _).trans (takeNonPosted_sameClock _ _ _)).trans (pageActions_sameClock _ _ _ _)

/-! ### An access presented -/

theorem presentWrite_sameClock (tag : Tag) (a : Address) (z : AccessSize) (d : Word) :
    SameClock s (presentWrite tag a z d s) := by
  unfold presentWrite
  simp only
  split
  · exact .refl s
  · split
    · exact answer_sameClock _ _ _ _
    · exact pageWriteTreatment_sameClock _ _ _ _
    · exact refuseWrite_sameClock _ _ _
    · exact stagingTreatment_sameClock _ _ _ _
    · exact commitTreatment_sameClock _ _ _ _ _
    · exact passWriteTreatment_sameClock _ _ _

theorem presentRead_sameClock (tag : Tag) (a : Address) (z : AccessSize) : SameClock s (presentRead tag a z s) := by
  unfold presentRead
  simp only
  split
  · exact .refl s
  · split
    · exact answer_sameClock _ _ _ _
    · exact pageReadTreatment_sameClock _ _
    · exact ((reportRefusedRead_sameClock _ _ _ _).trans (raise_sameClock _ _ _)).trans (answer_sameClock _ _ _ _)
    · exact passReadTreatment_sameClock _ _

/-! ### The staleness expiry, which can end in FALLBACK -/

theorem loseReference_sameClock : SameClock s (loseReference s) := by
  unfold loseReference
  simp only
  split_ifs
  · exact (raise_sameClock _ _ _).trans (fallbackEntry_sameClock _ _)
  · exact raise_sameClock _ _ _
  · exact .refl s

theorem stalenessExpires_sameClock (n : AxleNo) : SameClock s (stalenessExpires n s) :=
  ((((setAxle_middle _ _ _).trans (sandersReact_middle _)).trans (raise_middle _ _ _)).trans
    (requestRewrite_middle _ _)).sameClock.trans (loseReference_sameClock _)

/-! ### The issues -/

theorem launch_sameClock (f : Flight) : SameClock s (launch f s) := withEmission_sameClock _ _

theorem composingState_sameClock (b : BogieNo) (q : Request) (rewrite : Bool) :
    SameClock s (composingState b q rewrite s) := by
  have leave : SameClock s (leaveRewriteSet b rewrite s) := withEmission_sameClock _ _
  unfold composingState
  simp only
  split
  · exact leave.trans (prepareIssue_middle _ _ _).sameClock
  · exact leave

theorem issueDemand_sameClock (b : BogieNo) (q : Request) (rewrite : Bool) (of : BurstOf) (a : Address) :
    SameClock s (issueDemand b q rewrite of a s) :=
  ((composingState_sameClock _ _ _ _).trans (settleIssue_middle _ _ _ _ _).sameClock).trans (launch_sameClock _ _)

theorem issueRecord_sameClock (x : Entry) (r : Record) : SameClock s (issueRecord x r s) :=
  (withEmission_sameClock s _).trans (launch_sameClock _ _)

theorem issueAccess_sameClock : SameClock s (issueAccess s) :=
  (withEmission_sameClock s _).trans (launch_sameClock _ _)

/-! ### The answers of the D-port -/

theorem freePort_sameClock : SameClock s (freePort s) := withEmission_sameClock _ _

theorem finishAccess_sameClock (a : Answer) (data : Option (List Byte)) (x : Entry) :
    SameClock s (finishAccess a data x s) :=
  (((withEmission_sameClock s _).trans (withOverlay_sameClock _ _)).trans (answer_sameClock _ _ _ _)).trans
    (freePort_sameClock _)

theorem answerHeadBurst_sameClock (a : Answer) (x : Entry) : SameClock s (answerHeadBurst a x s) := by
  have pop : SameClock s (popHead s) := withEmission_sameClock _ _
  unfold answerHeadBurst
  split
  · exact pop.trans (answer_sameClock _ _ _ _)
  · exact pop

theorem memoryLost_sameClock : SameClock s (memoryLost s) := by
  unfold memoryLost
  split
  · exact fallbackEntry_sameClock _ _
  · exact .refl s

theorem headBurstLost_sameClock (a : Address) (x : Entry) : SameClock s (headBurstLost a x s) := by
  have answered := (raise_sameClock s .memoryFault (s.shadow.windowNumber a)).trans
    (answerHeadBurst_sameClock _ .err x)
  unfold headBurstLost
  simp only
  split
  · exact (answered.trans (memoryLost_sameClock _)).trans (freePort_sameClock _)
  · exact answered.trans (freePort_sameClock _)

theorem rewriteLost_sameClock (a : Address) : SameClock s (rewriteLost a s) :=
  ((raise_sameClock _ _ _).trans (memoryLost_sameClock _)).trans (freePort_sameClock _)

theorem failFlight_sameClock (f : Flight) : SameClock s (failFlight f s) := by
  unfold failFlight
  split
  · split
    · exact finishAccess_sameClock _ _ _ _
    · exact freePort_sameClock s
  · split
    · exact withEmission_sameClock _ _
    · exact rewriteLost_sameClock _ _
  · split
    · split
      · exact (withEmission_sameClock s _).trans (withEmission_sameClock _ _)
      · exact headBurstLost_sameClock _ _ _
    · exact freePort_sameClock s

theorem passFlight_sameClock (f : Flight) (d : Word) : SameClock s (passFlight f d s) := by
  unfold passFlight
  split
  · split
    · exact finishAccess_sameClock _ _ _ _
    · exact freePort_sameClock s
  · split
    · exact withEmission_sameClock _ _
    · split
      · exact freePort_sameClock s
      · split
        · exact (answerHeadBurst_sameClock _ _ _).trans (freePort_sameClock _)
        · exact freePort_sameClock s

end

/-! ### Every command -/

/-- The four issues leave the clock, whether the arbiter has decided them or not. -/
theorem issues_sameClock (c : Instr) (s : State)
    (h : c = .rewriteIssue ∨ c = .demandCommitIssue ∨ c = .recordBurstIssue ∨ c = .passAccessIssue) :
    ∃ t, exec c s = done t ∧ SameClock s t := by
  rcases h with rfl | rfl | rfl | rfl <;> refine ⟨_, rfl, ?_⟩
  · split
    · exact issueDemand_sameClock _ _ _ _ _ _
    · exact .refl s
  · split
    · split
      · exact issueDemand_sameClock _ _ _ _ _ _
      · exact .refl s
    · exact .refl s
  · split
    · split
      · exact issueRecord_sameClock _ _ _
      · exact issueRecord_sameClock _ _ _
      · exact .refl s
    · exact .refl s
  · split
    · split
      · exact issueAccess_sameClock s
      · exact .refl s
    · exact .refl s

/-- The two answers of memory and the timeout leave the clock. -/
theorem portEvents_sameClock (c : Instr) (s : State)
    (h : (∃ d began, c = .dPortAck d began) ∨ (∃ began, c = .dPortErr began) ∨ c = .dPortTimeout) :
    ∃ t, exec c s = done t ∧ SameClock s t := by
  rcases h with ⟨d, began, rfl⟩ | ⟨began, rfl⟩ | rfl <;> refine ⟨_, rfl, ?_⟩
  · split
    · exact passFlight_sameClock _ _ _
    · exact .refl s
  · split
    · exact failFlight_sameClock _ _
    · exact .refl s
  · split
    · split
      · exact failFlight_sameClock _ _
      · exact .refl s
    · exact .refl s

/-- Every command but POWER_ON leaves the waiting commands, the count of races and the time base. -/
theorem exec_sameClock (c : Instr) (s : State) (h : ∀ p, c ≠ .powerOn p) :
    ∃ t, exec c s = done t ∧ SameClock s t := by
  cases c
  case powerOn p => exact absurd rfl (h p)
  case rackReset p => exact ⟨_, rfl, rfl, rfl, rfl⟩
  case stagingWrite | speedCommit | feedbackCommit | demandCommit | passWrite | pageWrite | shadowTableWrite
      | routeTableWrite | modeRequestRun | modeRequestSetup | clearPersistent | noticeAcknowledge | sandRefill =>
    exact ⟨_, exec_write s rfl, presentWrite_sameClock _ _ _ _ _⟩
  case passRead | speedRecordRead | deviceStatusRead | noticeEntryRead =>
    exact ⟨_, exec_read s rfl, presentRead_sameClock _ _ _ _⟩
  case stalenessExpiry n => exact ⟨_, rfl, .ifDue _ (stalenessExpires_sameClock s n)⟩
  case freshnessExpiry b => exact ⟨_, rfl, .ifDue _ (freshnessExpires_middle b s).sameClock⟩
  case demandTimerExpiry b => exact ⟨_, rfl, .ifDue _ (demandTimerExpires_middle b s).sameClock⟩
  case releaseWaitExpiry => exact ⟨_, rfl, .ifDue _ (releaseWaitExpires_middle s).sameClock⟩
  case settlingTimerExpiry => exact ⟨_, rfl, .ifDue _ (settlingExpires_middle s).sameClock⟩
  case windowTimerExpiry => exact ⟨_, rfl, .ifDue _ (windowExpires_middle s).sameClock⟩
  case dwellTimerExpiry b => exact ⟨_, rfl, .ifDue _ (dwellExpires_middle b s).sameClock⟩
  case runTimerExpiry b => exact ⟨_, rfl, .ifDue _ (runExpires_middle b s).sameClock⟩
  case pauseTimerExpiry b => exact ⟨_, rfl, .ifDue _ (pauseExpires_middle b s).sameClock⟩
  case budgetUnitFall b => exact ⟨_, rfl, .ifDue _ (budgetFall_middle b s).sameClock⟩
  case rewriteIssue | demandCommitIssue | recordBurstIssue | passAccessIssue => exact issues_sameClock _ s (by simp)
  case dPortAck | dPortErr | dPortTimeout => exact portEvents_sameClock _ s (by simp)

/-- Settles O4: each command but POWER_ON is an operation that leaves the clock, and POWER_ON carries the model's own two
fields over. -/
theorem everyCommandCompletesAndLeavesTheQueue : Obligations.EveryCommandCompletesAndLeavesTheQueue := by
  intro c s
  by_cases hp : ∃ p, c = .powerOn p
  · obtain ⟨p, rfl⟩ := hp
    exact ⟨_, rfl, rfl, rfl, fun h => absurd rfl (h p)⟩
  · obtain ⟨t, ht, k⟩ := exec_sameClock c s fun p hc => hp ⟨p, hc⟩
    have settled := k.trans (settle_sameClock t)
    exact ⟨settle t, ht, settled.pending, settled.races, fun _ => settled.timeBase⟩

end Sys2Proof.Machine
end

section
/-! PROOFS. Scope (00_scope.md): what power-on leaves, and the two resets. -/

namespace Sys2Proof.Machine

/-! ### The blocks at power-on -/

theorem axle_reset (n : AxleNo) : State.reset.axles[n] = Axle.reset := by simp [State.reset]

theorem feedback_reset (b : BogieNo) : State.reset.feedback[b] = Feedback.reset := by simp [State.reset]

theorem sander_reset (b : BogieNo) : State.reset.sand.sanders[b] = Sander.reset := by
  simp [State.reset, Sand.reset]

theorem supervision_reset (b : BogieNo) : State.reset.supervision[b] = Supervision.reset := by
  simp [State.reset]

theorem notice_reset (i : Fin 15) : State.reset.notices[i] = Notice.clear := by simp [State.reset]

/-- The staging store is cleared (R22). -/
theorem stagingSlot_reset (p : Place) : State.reset.staging.slot p = Vector.replicate 16 0 := by
  cases p <;> simp [State.reset, Staging.reset, Staging.slot]

/-- Every byte of the shadow is zero (R166), whichever of the six tables an offset lies in. -/
theorem shadowByte_reset (off : Nat) : shadowByte State.reset.shadow off = 0 := by
  unfold shadowByte
  split_ifs <;> simp [State.reset, Shadow.reset]

theorem topNotice_reset : topNotice State.reset.notices = 0 := by decide

/-- Settles O5: each block's reset value. -/
theorem resetLeavesTheValuesOfTheSpec : Obligations.ResetLeavesTheValuesOfTheSpec := by
  have lines (k : Fin 4) : State.reset.lines.cut[k] = false := by simp [State.reset, Lines.low]
  have snapshots (t : Tag) : State.reset.overlay.snapshots[t] = none := by simp [State.reset, Overlay.reset]
  refine ⟨rfl, rfl, rfl, rfl, fun off _ _ => shadowByte_reset off, rfl, stagingSlot_reset, fun n => ?_, rfl, rfl,
    fun b => ?_, rfl, rfl, rfl, rfl, rfl, rfl, rfl, rfl, fun b => ?_, rfl, rfl, rfl, fun b => ?_, rfl, rfl, rfl, rfl,
    notice_reset, topNotice_reset, snapshots, rfl, lines, rfl⟩
  · rw [axle_reset n]
    simp [Axle.reset]
  · rw [feedback_reset b]
    simp [Feedback.reset]
  · rw [sander_reset b]
    simp [Sander.reset]
  · rw [State.standing, supervision_reset b]
    simp [Supervision.reset, Request.reset]

/-! ### The lines after a reset -/

/-- In SETUP with no code routed every line is low (R78, R159). -/
theorem lineLevels_low (s : State) (hm : s.control.mode = .setup) (hr : ∀ i : Fin 16, s.shadow.routed i = false) :
    lineLevels s = Lines.low := by
  have cut (k : Fin 4) : cutLevel s k = false := by simp [cutLevel, hm]
  have alert : alertLevel s = false := by simp [alertLevel, hr]
  unfold lineLevels Lines.low
  rw [alert]
  congr 1
  ext k hk
  simp [cut]

/-- The zeroed shadow routes no code to ALERT (R158, R166). -/
theorem routed_reset (i : Fin 16) : Shadow.reset.routed i = false := by simp [Shadow.routed, Shadow.reset]

theorem settle_powerOnState (p : Fin 8) (s : State) : settle (powerOnState p s) = powerOnState p s := by
  rw [settle_eq, lineLevels_low (powerOnState p s) rfl routed_reset]
  rfl

/-- The notices that RACKRST keeps do not hold ALERT up, for the shadow that routes them is zeroed (R159). -/
theorem settle_rackResetState (p : Fin 8) (s : State) : settle (rackResetState p s) = rackResetState p s := by
  rw [settle_eq, lineLevels_low (rackResetState p s) rfl routed_reset]
  rfl

/-- Settles O6: each reset's state has its lines at their levels already. -/
theorem theTwoResetsLeaveTheirStates : Obligations.TheTwoResetsLeaveTheirStates := by
  constructor
  · intro p s
    exact congrArg Host.Outcome.next (settle_powerOnState p s)
  · intro p s
    exact congrArg Host.Outcome.next (settle_rackResetState p s)

end Sys2Proof.Machine
end

section
/-! PROOFS. 08_the_outbound_queue_and_the_downstream_port.md: what every command keeps of the queue, of the access that
holds the bus, of what is in flight and of the arbiter's decision (R5, R123, R127). -/

namespace Sys2Proof.Machine

/-! ### The shape of the queue (R5, R123) -/

/-- At most six entries, of which at most the youngest is non-posted, and it is exactly while an access holds the bus;
`posted` says it of each entry, oldest first. -/
def QueueShape (posted : List Bool) (held : Bool) : Prop :=
  posted.length ≤ 6 ∧ (∀ p ∈ posted.dropLast, p = true) ∧ (held = true ↔ posted.getLast? = some false)

/-- Which entries of the queue are posted, oldest first. -/
def State.postedEntries (s : State) : List Bool := s.emission.queue.map Entry.posted

theorem queueSound_iff (s : State) :
    QueueSound s ↔ QueueShape s.postedEntries s.bus.access.isSome ∧ FlightSound s.emission := by
  unfold QueueSound QueueShape State.postedEntries
  rw [List.length_map, ← List.map_dropLast, List.forall_mem_map, List.getLast?_map]
  simp only [Option.map_eq_some_iff, and_assoc]

/-- With the bus free every entry is posted, so an entry of either sort may join. -/
theorem QueueShape.join {l : List Bool} (h : QueueShape l false) (room : l.length < 6) (p : Bool) :
    QueueShape (l ++ [p]) (!p) := by
  obtain ⟨-, older, youngest⟩ := h
  refine ⟨by simpa using room, ?_, by simp⟩
  rw [List.dropLast_concat]
  rcases List.eq_nil_or_concat' l with rfl | ⟨l', q, rfl⟩
  · simp
  · rw [List.dropLast_concat] at older
    have hq : q = true := by simpa using youngest
    simpa [hq, or_imp, forall_and] using older

/-- When the head leaves, the bus is held as before if the head was posted, and free if it was not. -/
theorem QueueShape.pop {p held : Bool} {l : List Bool} (h : QueueShape (p :: l) held) :
    QueueShape l (p && held) := by
  obtain ⟨len, older, youngest⟩ := h
  cases l with
  | nil => cases p <;> cases held <;> simp_all [QueueShape]
  | cons q l =>
    rw [List.dropLast_cons_cons, List.forall_mem_cons] at older
    obtain ⟨rfl, older⟩ := older
    exact ⟨by simp only [List.length_cons] at len ⊢; omega, older, by simpa using youngest⟩

/-! ### Sound states from sound states -/

section
variable {s t : State}

theorem queueSound_same (hq : t.postedEntries = s.postedEntries) (ha : t.bus.access = s.bus.access)
    (hf : FlightSound s.emission → FlightSound t.emission) (h : QueueSound s) : QueueSound t := by
  rw [queueSound_iff] at h ⊢
  rw [hq, ha]
  exact ⟨h.1, hf h.2⟩

/-- An entry that joins leaves what is in flight fit for the head. -/
theorem FlightSound.join {e f : Emission} {x : Entry} (hq : f.queue = e.queue ++ [x]) (hf : f.inFlight = e.inFlight)
    (h : FlightSound e) : FlightSound f := by
  unfold FlightSound at h ⊢
  rw [hf]
  split at h
  · trivial
  · obtain ⟨y, hy, hp⟩ := h
    exact ⟨y, by simp [hq, hy], hp⟩
  · obtain ⟨y, hy, hp⟩ := h
    exact ⟨y, by simp [hq, hy], hp⟩
  · trivial

theorem queueSound_join {x : Entry} (free : s.bus.access = none) (room : HasRoom s)
    (hq : t.emission.queue = s.emission.queue ++ [x]) (hf : t.emission.inFlight = s.emission.inFlight)
    (ha : t.bus.access.isSome = !x.posted) (h : QueueSound s) : QueueSound t := by
  rw [queueSound_iff, free] at h
  rw [queueSound_iff, ha, show t.postedEntries = s.postedEntries ++ [x.posted] by simp [State.postedEntries, hq]]
  exact ⟨h.1.join (by rw [State.postedEntries, List.length_map]; exact room) _, h.2.join hq hf⟩

theorem queueSound_pop {x : Entry} {rest : List Entry} (hs : s.emission.queue = x :: rest)
    (hq : t.emission.queue = rest) (hf : t.emission.inFlight = none)
    (ha : FlightSound s.emission → t.bus.access.isSome = (x.posted && s.bus.access.isSome)) (h : QueueSound s) :
    QueueSound t := by
  rw [queueSound_iff] at h ⊢
  obtain ⟨shape, flight⟩ := h
  rw [show s.postedEntries = x.posted :: rest.map Entry.posted by simp [State.postedEntries, hs]] at shape
  rw [show t.postedEntries = rest.map Entry.posted by simp [State.postedEntries, hq], ha flight]
  exact ⟨shape.pop, by simp [FlightSound, hf]⟩

end

/-! ### Operations that keep both -/

/-- A change from the first state to the second keeps the queue and the arbiter's decision sound. -/
structure PortKept (s t : State) : Prop where
  queue : QueueSound s → QueueSound t
  arbiter : ArbiterSound s.emission → ArbiterSound t.emission

theorem PortKept.refl (s : State) : PortKept s s := ⟨id, id⟩

theorem PortKept.trans {s t u : State} (h : PortKept s t) (k : PortKept t u) : PortKept s u :=
  ⟨k.queue ∘ h.queue, k.arbiter ∘ h.arbiter⟩

theorem PortKept.ifDue {s t : State} (due : Bool) (h : PortKept s t) : PortKept s (if due then t else s) := by
  cases due
  · exact .refl s
  · exact h

/-- A change that leaves the access on the bus and the emission unit. -/
theorem PortKept.of {s t : State} (ha : t.bus.access = s.bus.access) (he : t.emission = s.emission) : PortKept s t :=
  ⟨queueSound_same (by rw [State.postedEntries, he, State.postedEntries]) ha (he ▸ id), fun h => he ▸ h⟩

theorem FlightSound.congr {e f : Emission} (hq : f.queue = e.queue) (hf : f.inFlight = e.inFlight)
    (h : FlightSound e) : FlightSound f := by
  unfold FlightSound
  rw [hq, hf]
  exact h

theorem MiddleChange.portKept {s t : State} (h : MiddleChange s t) : PortKept s t where
  queue := queueSound_same (by rw [State.postedEntries, h.queue, State.postedEntries]) (by rw [h.bus])
    (FlightSound.congr h.queue h.inFlight)
  arbiter := h.arbiter

/-- An answer to an access that did not hold the bus. -/
theorem answer_portKept {s : State} (free : s.bus.access = none) (tag : Tag) (a : Answer)
    (data : Option (List Byte)) : PortKept s (answer tag a data s) :=
  .of free.symm rfl

theorem takeNonPosted_portKept {s : State} (free : s.bus.access = none) (room : HasRoom s) (x : Access)
    {k : EntryKind} (hk : ∀ y : Entry, y.kind = k → y.posted = false) : PortKept s (takeNonPosted x k s) where
  queue := queueSound_join free room rfl rfl (by rw [hk _ rfl]; rfl)
  arbiter := joined_sound _ _

/-- A write taken into the queue: the report and the entry. -/
theorem writeTaken_portKept {s : State} (free : s.bus.access = none) (room : HasRoom s) (x : Access) {k : EntryKind}
    (hk : ∀ y : Entry, y.kind = k → y.posted = false) : PortKept s (takeNonPosted x k (reportWrite x.tag s)) := by
  have report : PortKept s (reportWrite x.tag s) := .of rfl rfl
  exact report.trans (takeNonPosted_portKept (s := reportWrite x.tag s) free room x hk)

theorem room_of_full {s : State} (h : ¬ s.emission.full = true) : HasRoom s := by
  simpa [full_iff] using h

/-- A report of a read changes nothing that the rest of the access's treatment looks at. -/
theorem reportRead_frame (tag : Tag) (a : Address) (z : AccessSize) (s : State) :
    (reportRead tag a z s).bus = s.bus ∧ (reportRead tag a z s).emission = s.emission := by
  obtain ⟨o, h⟩ := reportRead_overlay s tag a z
  rw [h]
  exact ⟨rfl, rfl⟩

theorem reportRefusedRead_frame (tag : Tag) (a : Address) (z : AccessSize) (s : State) :
    (reportRefusedRead tag a z s).bus = s.bus ∧ (reportRefusedRead tag a z s).emission = s.emission := by
  obtain ⟨o, h⟩ := reportRefusedRead_overlay s tag a z
  rw [h]
  exact ⟨rfl, rfl⟩

/-! ### The treatments of an access -/

section
variable {s : State} (free : s.bus.access = none)
include free

theorem refuseWrite_portKept (tag : Tag) (i : Nat) : PortKept s (refuseWrite tag i s) := .of free.symm rfl

theorem rejectCommit_portKept (tag : Tag) (w : WindowNo) : PortKept s (rejectCommit tag w s) := .of free.symm rfl

theorem stagingTreatment_portKept (x : Access) (d : Word) (p : Place) : PortKept s (stagingTreatment x d p s) :=
  .of free.symm rfl

theorem passWriteTreatment_portKept (x : Access) (d : Word) : PortKept s (passWriteTreatment x d s) := by
  unfold passWriteTreatment
  split
  · exact answer_portKept free _ _ _
  · rename_i room
    exact writeTaken_portKept free (room_of_full room) x fun y h => by rw [Entry.posted, h]

/-- A read taken into the queue: the report and the entry. -/
theorem readTaken_portKept (room : HasRoom s) (x : Access) {k : EntryKind}
    (hk : ∀ y : Entry, y.kind = k → y.posted = false) :
    PortKept s (takeNonPosted x k (reportRead x.tag x.address x.size s)) := by
  obtain ⟨hb, he⟩ := reportRead_frame x.tag x.address x.size s
  exact (PortKept.of (by rw [hb]) he).trans
    (takeNonPosted_portKept (by rw [hb]; exact free) (by rw [HasRoom, he]; exact room) x hk)

theorem passReadTreatment_portKept (x : Access) : PortKept s (passReadTreatment x s) := by
  unfold passReadTreatment
  split
  · exact answer_portKept free _ _ _
  · rename_i room
    exact readTaken_portKept free (room_of_full room) x fun y h => by rw [Entry.posted, h]

theorem pageReadTreatment_portKept (x : Access) : PortKept s (pageReadTreatment x s) := by
  unfold pageReadTreatment
  split
  · exact answer_portKept free _ _ _
  · rename_i room
    exact readTaken_portKept free (room_of_full room) x fun y h => by rw [Entry.posted, h]

/-- A commit accepted: its entry joins, its owner applies it in the middle of the part, and the U-port shows an access
held exactly if the entry is non-posted. -/
theorem acceptCommit_portKept (room : HasRoom s) {x : Access} {p : Place} {image : Record} {k : EntryKind}
    {t u : State} (applied : MiddleChange (acceptCommit x p image k s) t) (he : u.emission = t.emission)
    (ha : ∀ y : Entry, y.kind = k → u.bus.access.isSome = !y.posted) : PortKept s u where
  queue := queueSound_join free room (by rw [he, applied.queue]; rfl) (by rw [he, applied.inFlight]; rfl) (ha _ rfl)
  arbiter h := by
    rw [he]
    exact applied.arbiter (joined_sound _ _ h)

theorem speedCommitTreatment_portKept (x : Access) (n : AxleNo) (w : WindowNo) (image : Record) :
    PortKept s (speedCommitTreatment x n w image s) := by
  unfold speedCommitTreatment
  split_ifs with _ room
  · exact rejectCommit_portKept free _ _
  · exact answer_portKept free _ _ _
  · exact acceptCommit_portKept free (room_of_full room) (applySpeed_middle _ _ _) rfl
      fun y h => by rw [Entry.posted, h]; rfl

theorem feedbackCommitTreatment_portKept (x : Access) (b : BogieNo) (w : WindowNo) (image : Record) :
    PortKept s (feedbackCommitTreatment x b w image s) := by
  unfold feedbackCommitTreatment
  split_ifs with _ room
  · exact rejectCommit_portKept free _ _
  · exact answer_portKept free _ _ _
  · exact acceptCommit_portKept free (room_of_full room) (applyFeedback_middle _ _ _) rfl
      fun y h => by rw [Entry.posted, h]; rfl

theorem demandCommitTreatment_portKept (x : Access) (b : BogieNo) (w : WindowNo) (image : Record) :
    PortKept s (demandCommitTreatment x b w image s) := by
  unfold demandCommitTreatment
  split_ifs with _ room
  · exact rejectCommit_portKept free _ _
  · exact answer_portKept free _ _ _
  · exact acceptCommit_portKept free (room_of_full room) (applyDemand_middle _ _) rfl
      fun y h => by rw [Entry.posted, h]; rfl

theorem commitTreatment_portKept (x : Access) (d : Word) (p : Place) (w : WindowNo) :
    PortKept s (commitTreatment x d p w s) := by
  unfold commitTreatment
  cases p with
  | demand b => exact demandCommitTreatment_portKept free _ _ _ _
  | speed n => exact speedCommitTreatment_portKept free _ _ _ _
  | feedback b => exact feedbackCommitTreatment_portKept free _ _ _ _

end

/-! ### Mode changes and the actions of a page write -/

section
variable (s : State)

theorem rejectMode_portKept (r : Fin 10) : PortKept s (rejectMode r s) := .of rfl rfl

theorem runEntry_portKept : PortKept s (runEntry s) := .of rfl rfl

/-- SETUP entry leaves the queue and what is in flight, and the arbiter decides anew (R139). -/
theorem setupEntry_portKept : PortKept s (setupEntry s) where
  queue := queueSound_same rfl rfl (FlightSound.congr rfl rfl)
  arbiter _ := arbitrate_sound _ (fun _ => rfl) (fun h => by cases h) (fun _ h => by cases h)

theorem fallbackEntry_portKept (k : FallbackCause) : PortKept s (fallbackEntry k s) := by
  have mode : PortKept s (s.withControl { s.control with mode := .fallback, fallbackCause := k }) := .of rfl rfl
  exact mode.trans (MiddleChange.ofSander (fallbackEntry_change k s)).portKept

theorem requestRun_portKept : PortKept s (requestRun s) := by
  unfold requestRun
  cases s.control.mode with
  | setup =>
    simp only
    split
    · exact runEntry_portKept s
    · exact rejectMode_portKept s _
  | run => exact rejectMode_portKept s 9
  | fallback => exact rejectMode_portKept s 9

theorem requestSetup_portKept : PortKept s (requestSetup s) := by
  unfold requestSetup
  split_ifs
  · exact setupEntry_portKept s
  · exact rejectMode_portKept s 8
  · exact .refl s

theorem carriedModeRequest_portKept (off : Nat) (z : AccessSize) (d : Word) :
    PortKept s (carriedModeRequest off z d s) := by
  unfold carriedModeRequest
  split
  · split_ifs
    · exact requestRun_portKept s
    · exact requestSetup_portKept s
    · exact .refl s
  · exact .refl s

theorem carriedRefill_middle (off : Nat) (z : AccessSize) (d : Word) (b : BogieNo) :
    MiddleChange s (carriedRefill off z d b s) := by
  unfold carriedRefill
  split
  · exact refill_middle _ _ _
  · exact .refl s

/-- The clears, acknowledgements and refills of a control record write change the middle of the part; the mode request
comes after them (R168). -/
theorem controlActions_middle (off : Nat) (z : AccessSize) (d : Word) :
    ∃ t, MiddleChange s t ∧ controlActions off z d s = carriedModeRequest off z d t := by
  refine ⟨_, ?_, rfl⟩
  rw [foldl_upTo4]
  have flags := (clearPersistentFlags_middle ((coveredByte off z d 1).getD 0) s).trans
    (acknowledge_middle (carriedAcknowledge off z d) _)
  exact (((flags.trans (carriedRefill_middle _ _ _ _ 0)).trans (carriedRefill_middle _ _ _ _ 1)).trans
    (carriedRefill_middle _ _ _ _ 2)).trans (carriedRefill_middle _ _ _ _ 3)

theorem pageActions_portKept (off : Nat) (z : AccessSize) (d : Word) : PortKept s (pageActions off z d s) := by
  unfold pageActions
  split_ifs
  · obtain ⟨t, h, e⟩ := controlActions_middle s off z d
    rw [e]
    exact h.portKept.trans (carriedModeRequest_portKept t _ _ _)
  · exact .of rfl rfl
  · exact .refl s

theorem pageWriteTreatment_portKept (free : s.bus.access = none) (x : Access) (d : Word) (off : Nat) :
    PortKept s (pageWriteTreatment x d off s) := by
  unfold pageWriteTreatment
  split
  · exact refuseWrite_portKept free _ _
  · exact .of free.symm rfl
  · split
    · exact answer_portKept free _ _ _
    · rename_i room
      exact (writeTaken_portKept free (room_of_full room) x fun y h => by rw [Entry.posted, h]).trans
        (pageActions_portKept _ _ _ _)

/-! ### An access presented -/

theorem presentWrite_portKept (tag : Tag) (a : Address) (z : AccessSize) (d : Word) :
    PortKept s (presentWrite tag a z d s) := by
  unfold presentWrite
  simp only
  split
  · exact .refl s
  · rename_i h
    have free : s.bus.access = none := by simpa using h
    split
    · exact answer_portKept free _ _ _
    · exact pageWriteTreatment_portKept s free _ _ _
    · exact refuseWrite_portKept free _ _
    · exact stagingTreatment_portKept free _ _ _
    · exact commitTreatment_portKept free _ _ _ _
    · exact passWriteTreatment_portKept free _ _

theorem presentRead_portKept (tag : Tag) (a : Address) (z : AccessSize) : PortKept s (presentRead tag a z s) := by
  unfold presentRead
  simp only
  split
  · exact .refl s
  · rename_i h
    have free : s.bus.access = none := by simpa using h
    split
    · exact answer_portKept free _ _ _
    · exact pageReadTreatment_portKept free _
    · exact .of free.symm (reportRefusedRead_frame tag a z s).2
    · exact passReadTreatment_portKept free _

/-! ### The staleness expiry, which can end in FALLBACK -/

theorem stalenessExpires_portKept (n : AxleNo) : PortKept s (stalenessExpires n s) := by
  have lose (u : State) : PortKept u (loseReference u) := by
    unfold loseReference
    simp only
    split_ifs
    · exact (raise_middle _ _ _).portKept.trans (fallbackEntry_portKept _ _)
    · exact (raise_middle _ _ _).portKept
    · exact .refl u
  exact ((((setAxle_middle _ _ _).trans (sandersReact_middle _)).trans (raise_middle _ _ _)).trans
    (requestRewrite_middle _ _)).portKept.trans (lose _)

/-! ### The issues (R127, R131, R135) -/

/-- A flight that goes out leaves no decision, whatever stood. -/
theorem launch_portKept {u : State} (f : Flight) (hq : u.emission.queue = s.emission.queue) (hb : u.bus = s.bus)
    (hf : FlightSound (launch f u).emission) : PortKept s (launch f u) where
  queue := queueSound_same (congrArg (List.map Entry.posted) hq) (congrArg Bus.access hb) fun _ => hf
  arbiter _ := ⟨fun _ => rfl, fun h => (by cases h), fun h => (by cases h), fun _ h => (by cases h)⟩

theorem composingState_frame (b : BogieNo) (q : Request) (rewrite : Bool) :
    (composingState b q rewrite s).emission.queue = s.emission.queue ∧ (composingState b q rewrite s).bus = s.bus := by
  unfold composingState
  simp only
  split
  · have h := prepareIssue_middle b q (leaveRewriteSet b rewrite s)
    exact ⟨h.queue, h.bus⟩
  · exact ⟨rfl, rfl⟩

/-- A demand burst goes out for a rewrite, or for a head that is no pass or page entry. -/
theorem issueDemand_portKept (b : BogieNo) (q : Request) (rewrite : Bool) (of : BurstOf) (a : Address)
    (fits : of = .head → ∃ x, s.emission.queue.head? = some x ∧ x.portAccess = none) :
    PortKept s (issueDemand b q rewrite of a s) := by
  obtain ⟨hq, hb⟩ := composingState_frame s b q rewrite
  have settled := settleIssue_middle b q (compose (composingState b q rewrite s) b q) (releaseWaitHolds s)
    (composingState b q rewrite s)
  rw [issueDemand_eq]
  refine launch_portKept s _ (settled.queue.trans hq) (settled.bus.trans hb) ?_
  cases of with
  | head =>
    obtain ⟨x, hx, hp⟩ := fits rfl
    exact ⟨x, (congrArg List.head? (settled.queue.trans hq)).trans hx, hp⟩
  | rewrite => trivial

theorem issueRecord_portKept (x : Entry) (r : Record) (hx : s.emission.queue.head? = some x)
    (hp : x.portAccess = none) : PortKept s (issueRecord x r s) :=
  launch_portKept s _ rfl rfl ⟨x, hx, hp⟩

theorem issues_portKept (c : Instr)
    (h : c = .rewriteIssue ∨ c = .demandCommitIssue ∨ c = .recordBurstIssue ∨ c = .passAccessIssue) :
    ∃ t, exec c s = done t ∧ PortKept s t := by
  have head {x : Entry} (hx : issuingHead s = some x) : s.emission.queue.head? = some x :=
    ((issuingHead_some s x).1 hx).2
  rcases h with rfl | rfl | rfl | rfl <;> refine ⟨_, rfl, ?_⟩
  · split
    · exact issueDemand_portKept s _ _ _ _ _ (fun h => by cases h)
    · exact .refl s
  · split
    · rename_i x hx
      split
      · rename_i hk
        exact issueDemand_portKept s _ _ _ _ _ fun _ => ⟨x, head hx, by rw [Entry.portAccess, hk]⟩
      · exact .refl s
    · exact .refl s
  · split
    · rename_i x hx
      split
      · rename_i hk
        exact issueRecord_portKept s _ _ (head hx) (by rw [Entry.portAccess, hk])
      · rename_i hk
        exact issueRecord_portKept s _ _ (head hx) (by rw [Entry.portAccess, hk])
      · exact .refl s
    · exact .refl s
  · split
    · rename_i x hx
      split
      · rename_i hp
        exact launch_portKept s _ rfl rfl ⟨x, head hx, by rw [hp]; rfl⟩
      · exact .refl s
    · exact .refl s

/-! ### The answers of the D-port (R134 to R138) -/

theorem freePort_portKept : PortKept s (freePort s) where
  queue := queueSound_same rfl rfl fun _ => trivial
  arbiter _ := ended_sound _ _

/-- An entry with an access of its own is non-posted, and of the others a DEMAND_COMMIT alone is. -/
theorem posted_of_portAccess (x : Entry) :
    (x.portAccess.isSome = true → x.posted = false) ∧ (x.portAccess = none → x.posted = !x.isDemand) := by
  unfold Entry.portAccess Entry.posted Entry.isDemand
  cases x.kind <;> simp

theorem finishAccess_portKept {began : Word} {x : Entry} (a : Answer) (data : Option (List Byte))
    (hf : s.emission.inFlight = some (.access began)) (hx : s.emission.queue.head? = some x) :
    PortKept s (finishAccess a data x s) where
  queue := by
    obtain ⟨rest, hq⟩ := List.head?_eq_some_iff.1 hx
    refine queueSound_pop hq (congrArg List.tail hq) rfl fun h => ?_
    rw [FlightSound, hf] at h
    obtain ⟨y, hy, hp⟩ := h
    obtain rfl : x = y := Option.some.inj (hx.symm.trans hy)
    rw [(posted_of_portAccess x).1 hp]
    rfl
  arbiter _ := ended_sound _ _

/-- The head leaves at the end of its burst: a DEMAND_COMMIT's access with it. -/
theorem answerHeadBurst_frame (a : Answer) (x : Entry) :
    (answerHeadBurst a x s).emission.queue = s.emission.queue.tail ∧
      (answerHeadBurst a x s).bus = if x.isDemand = true then answered x.tag a none else s.bus := by
  unfold answerHeadBurst Entry.isDemand
  cases x.kind <;> exact ⟨rfl, rfl⟩

/-- The end of the head entry's burst, with whatever else its end does in the middle of the part. -/
theorem endBurst_portKept {a r k began} {x : Entry} {t : State}
    (hf : s.emission.inFlight = some (.burst .head a r k began)) (hx : s.emission.queue.head? = some x)
    (hq : t.emission.queue = s.emission.queue.tail)
    (hb : t.bus.access = if x.isDemand = true then none else s.bus.access) : PortKept s (freePort t) where
  queue := by
    obtain ⟨rest, hr⟩ := List.head?_eq_some_iff.1 hx
    refine queueSound_pop (x := x) (rest := rest) hr (hq.trans (congrArg List.tail hr)) rfl fun h => ?_
    rw [FlightSound, hf] at h
    obtain ⟨y, hy, hp⟩ := h
    obtain rfl : x = y := Option.some.inj (hx.symm.trans hy)
    rw [(posted_of_portAccess x).2 hp, freePort_eq, hb]
    cases x.isDemand <;> rfl
  arbiter _ := ended_sound _ _

theorem memoryLost_frame : (memoryLost s).emission.queue = s.emission.queue ∧ (memoryLost s).bus = s.bus := by
  unfold memoryLost
  split
  · have h := MiddleChange.ofSander (fallbackEntry_change .memoryFault s)
    exact ⟨h.queue, h.bus⟩
  · exact ⟨rfl, rfl⟩

theorem headBurstLost_portKept {a r k began} {x : Entry}
    (hf : s.emission.inFlight = some (.burst .head a r k began)) (hx : s.emission.queue.head? = some x) :
    PortKept s (headBurstLost a x s) := by
  obtain ⟨hq, hb⟩ := answerHeadBurst_frame (raise .memoryFault (s.shadow.windowNumber a) s) .err x
  have access := congrArg Bus.access hb
  rw [apply_ite Bus.access] at access
  unfold headBurstLost
  simp only
  split
  · obtain ⟨lq, lb⟩ := memoryLost_frame (answerHeadBurst .err x (raise .memoryFault (s.shadow.windowNumber a) s))
    exact endBurst_portKept s hf hx (lq.trans hq) ((congrArg Bus.access lb).trans access)
  · exact endBurst_portKept s hf hx hq access

theorem memoryLost_portKept : PortKept s (memoryLost s) := by
  unfold memoryLost
  split
  · exact fallbackEntry_portKept _ _
  · exact .refl s

/-- A burst goes on, or begins again, as the same entry's or rewrite's, whose retry count may have risen. -/
theorem burst_portKept {of of' : BurstOf} {a r k began a' r' k' began'} {t : State}
    (hf : s.emission.inFlight = some (.burst of a r k began))
    (ht : t.emission.inFlight = some (.burst of' a' r' k' began')) (same : of' = .head → of = .head)
    (hd : t.emission.decision = s.emission.decision) (hb : t.bus.access = s.bus.access)
    (hq : t.emission.queue = s.emission.queue ∨
      ∃ x rest, s.emission.queue = x :: rest ∧ t.emission.queue = { x with retries := 1 } :: rest) :
    PortKept s t where
  queue := by
    refine queueSound_same ?_ hb fun h => ?_
    · rcases hq with hq | ⟨x, rest, hs, hq⟩
      · rw [State.postedEntries, hq, State.postedEntries]
      · rw [State.postedEntries, hq, State.postedEntries, hs]
        rfl
    · unfold FlightSound at h ⊢
      rw [hf] at h
      rw [ht]
      cases of' with
      | rewrite => trivial
      | head =>
        obtain rfl := same rfl
        obtain ⟨x, hx, hp⟩ := h
        rcases hq with hq | ⟨y, rest, hs, hq⟩
        · exact ⟨x, by rw [hq, hx], hp⟩
        · rw [hs] at hx
          obtain rfl : y = x := Option.some.inj hx
          exact ⟨{ y with retries := 1 }, by rw [hq]; rfl, hp⟩
  arbiter h := by
    have none : t.emission.decision = none := hd.trans (h.1 (by simp [hf]))
    refine ⟨fun _ => none, fun free => ?_, fun k => ?_, fun b k => ?_⟩
    · exact absurd (ht.symm.trans free) (by simp)
    · exact absurd (none.symm.trans k) (by simp)
    · exact absurd (none.symm.trans k) (by simp)

theorem failFlight_portKept {f : Flight} (hf : s.emission.inFlight = some f) : PortKept s (failFlight f s) := by
  unfold failFlight
  split
  · split
    · rename_i hx
      exact finishAccess_portKept s _ _ hf hx
    · exact freePort_portKept s
  · split
    · exact burst_portKept s hf rfl (fun h => by cases h) rfl rfl (.inl rfl)
    · exact ((raise_middle _ _ _).portKept.trans (memoryLost_portKept _)).trans (freePort_portKept _)
  · split
    · rename_i x hx
      split
      · obtain ⟨rest, hq⟩ := List.head?_eq_some_iff.1 hx
        exact burst_portKept s hf rfl (fun _ => rfl) rfl rfl
          (.inr ⟨x, rest, hq, by simp only [restartBurst, markRetry, emission_withEmission, hq]⟩)
      · exact headBurstLost_portKept s hf hx
    · exact freePort_portKept s

theorem passFlight_portKept {f : Flight} (d : Word) (hf : s.emission.inFlight = some f) :
    PortKept s (passFlight f d s) := by
  unfold passFlight
  split
  · split
    · rename_i hx
      exact finishAccess_portKept s _ _ hf hx
    · exact freePort_portKept s
  · split
    · exact burst_portKept s hf rfl id rfl rfl (.inl rfl)
    · split
      · exact freePort_portKept s
      · split
        · rename_i x hx
          obtain ⟨hq, hb⟩ := answerHeadBurst_frame s .ack x
          exact endBurst_portKept s hf hx hq ((congrArg Bus.access hb).trans (apply_ite Bus.access _ _ _))
        · exact freePort_portKept s

theorem portEvents_portKept (c : Instr)
    (h : (∃ d began, c = .dPortAck d began) ∨ (∃ began, c = .dPortErr began) ∨ c = .dPortTimeout) :
    ∃ t, exec c s = done t ∧ PortKept s t := by
  have answered {began : Option Word} {f : Flight} (h : answeredFlight s began = some f) :
      s.emission.inFlight = some f := by
    unfold answeredFlight at h
    split at h
    · rename_i hf
      split at h
      · rw [hf, h]
      · cases h
    · cases h
  rcases h with ⟨d, began, rfl⟩ | ⟨began, rfl⟩ | rfl <;> refine ⟨_, rfl, ?_⟩
  · split
    · rename_i hf
      exact passFlight_portKept s d (answered hf)
    · exact .refl s
  · split
    · rename_i hf
      exact failFlight_portKept s (answered hf)
    · exact .refl s
  · split
    · split
      · rename_i hf
        exact failFlight_portKept s hf
      · exact .refl s
    · exact .refl s

end

/-! ### Every command -/

/-- What a reset leaves: an empty queue, a free bus and a free D-port (R140). -/
theorem queueSound_reset {t : State} (he : t.emission = Emission.reset) (hb : t.bus = Bus.idle) : QueueSound t := by
  rw [QueueSound, he, hb]
  exact ⟨by decide, fun x hx => (by cases hx), by simp [Bus.idle, Emission.reset], trivial⟩

theorem arbiterSound_reset : ArbiterSound Emission.reset :=
  arbitrate_sound Emission.reset (fun h => absurd rfl h) (fun h => by cases h) fun _ h => by cases h

theorem PortKept.ofReset {s t : State} (he : t.emission = Emission.reset) (hb : t.bus = Bus.idle) : PortKept s t :=
  ⟨fun _ => queueSound_reset he hb, fun _ => he ▸ arbiterSound_reset⟩

theorem exec_portKept (c : Instr) (s : State) : ∃ t, exec c s = done t ∧ PortKept s t := by
  cases c
  case powerOn p => exact ⟨_, rfl, .ofReset rfl rfl⟩
  case rackReset p => exact ⟨_, rfl, .ofReset rfl rfl⟩
  case stagingWrite | speedCommit | feedbackCommit | demandCommit | passWrite | pageWrite | shadowTableWrite
      | routeTableWrite | modeRequestRun | modeRequestSetup | clearPersistent | noticeAcknowledge | sandRefill =>
    exact ⟨_, exec_write s rfl, presentWrite_portKept _ _ _ _ _⟩
  case passRead | speedRecordRead | deviceStatusRead | noticeEntryRead =>
    exact ⟨_, exec_read s rfl, presentRead_portKept _ _ _ _⟩
  case stalenessExpiry n => exact ⟨_, rfl, .ifDue _ (stalenessExpires_portKept s n)⟩
  case freshnessExpiry b => exact ⟨_, rfl, .ifDue _ (freshnessExpires_middle b s).portKept⟩
  case demandTimerExpiry b => exact ⟨_, rfl, .ifDue _ (demandTimerExpires_middle b s).portKept⟩
  case releaseWaitExpiry => exact ⟨_, rfl, .ifDue _ (releaseWaitExpires_middle s).portKept⟩
  case settlingTimerExpiry => exact ⟨_, rfl, .ifDue _ (settlingExpires_middle s).portKept⟩
  case windowTimerExpiry => exact ⟨_, rfl, .ifDue _ (windowExpires_middle s).portKept⟩
  case dwellTimerExpiry b => exact ⟨_, rfl, .ifDue _ (dwellExpires_middle b s).portKept⟩
  case runTimerExpiry b => exact ⟨_, rfl, .ifDue _ (runExpires_middle b s).portKept⟩
  case pauseTimerExpiry b => exact ⟨_, rfl, .ifDue _ (pauseExpires_middle b s).portKept⟩
  case budgetUnitFall b => exact ⟨_, rfl, .ifDue _ (budgetFall_middle b s).portKept⟩
  case rewriteIssue | demandCommitIssue | recordBurstIssue | passAccessIssue => exact issues_portKept s _ (by simp)
  case dPortAck | dPortErr | dPortTimeout => exact portEvents_portKept s _ (by simp)

theorem settled_portKept {c : Instr} {s t : State} (h : exec c s = done t) : PortKept s (settle t) := by
  obtain ⟨v, hv, k⟩ := exec_portKept c s
  have settled : settle v = settle t := Host.Outcome.next.inj (hv.symm.trans h)
  exact settled ▸ k.trans (.of rfl rfl)

/-- Settles O60: every operation that a command is made of keeps the queue and the arbiter's decision sound, and so does
every step. -/
theorem everyStepKeepsTheQueueSound : Obligations.EveryStepKeepsTheQueueSound :=
  ⟨step_keeps QueueSound (fun _ _ h => h) (fun _ _ h => h) (fun _ h => h) fun _ _ _ h e => (settled_portKept e).queue h,
    step_keeps (fun s => ArbiterSound s.emission) (fun _ _ h => h) (fun _ _ h => h) (fun _ h => h)
      fun _ _ _ h e => (settled_portKept e).arbiter h⟩

end Sys2Proof.Machine
end

section
/-! PROOFS. 01_access_handling_and_record_windows.md: misaligned and refused accesses, staging writes, commits, and
accesses that pass through (R6 to R19). -/

namespace Sys2Proof.Machine

/-! ### Alignment (R6) -/

theorem alignedAccess_false {a : Address} {z : AccessSize} (h : a.toNat % z.bytes ≠ 0) : alignedAccess a z = false := by
  simpa [alignedAccess] using h

theorem presentWrite_misaligned {s : State} {a : Address} {z : AccessSize} (tag : Tag) (d : Word)
    (free : s.bus.access = none) (h : a.toNat % z.bytes ≠ 0) :
    presentWrite tag a z d s = answer tag .err none s := by
  have class_eq : classifyWrite s tag a z = .misaligned := by simp [classifyWrite, alignedAccess_false h]
  rw [presentWrite_free tag a z d free, class_eq]

theorem presentRead_misaligned {s : State} {a : Address} {z : AccessSize} (tag : Tag) (free : s.bus.access = none)
    (h : a.toNat % z.bytes ≠ 0) : presentRead tag a z s = answer tag .err none s := by
  have class_eq : classifyRead s tag a z = .misaligned := by simp [classifyRead, alignedAccess_false h]
  rw [presentRead_free tag a z free, class_eq]

/-- Settles O7: a write and a read of the class alike. -/
theorem aMisalignedAccessIsAnsweredErr : Obligations.AMisalignedAccessIsAnsweredErr := by
  rintro c s tag a z (⟨d, hc⟩ | hc) free h
  · rw [exec_write s hc, presentWrite_misaligned tag d free h]
    rfl
  · rw [exec_read s hc, presentRead_misaligned tag free h]
    rfl

/-! ### Accesses that a mask refuses (R10, R162) -/

theorem refuseWrite_eq (tag : Tag) (i : Nat) (s : State) :
    refuseWrite tag i s =
      { s with
        notices := noted .accessRefused i s.timeBase s.notices
        overlay := released tag s.overlay
        bus := answered tag .err none } := rfl

theorem presentWrite_refused {s : State} {tag : Tag} {a : Address} {z : AccessSize} {w : WindowNo} (d : Word)
    (h : OffPage s a z) (hw : matchedWindow s a = some w) (hm : s.shadow.windowWriter w tag = false) :
    presentWrite tag a z d s = refuseWrite tag tag.val s := by
  rw [presentWrite_free tag a z d h.1, classifyWrite_refused h hw hm]

theorem presentRead_refused {s : State} {tag : Tag} {a : Address} {z : AccessSize} {w : WindowNo}
    (h : OffPage s a z) (hw : matchedWindow s a = some w) (hm : s.shadow.windowReader w tag = false) :
    presentRead tag a z s = answer tag .err none (raise .accessRefused tag.val (reportRefusedRead tag a z s)) := by
  rw [presentRead_free tag a z h.1, classifyRead_refused h hw hm]

/-- The enriched record of an address in a window: the speed record, if it is a SPEED window (R160, R161). Unfolded with
no state in its place, as `reportRead_overlay` is. -/
theorem enrichedAt_window {s : State} {a : Address} {w : WindowNo} (hp : pageOffset s a = none)
    (hw : matchedWindow s a = some w) :
    enrichedAt s a =
      if s.shadow.recordKind w = some .speed then
        some (.speed (Fin.ofNat 8 (s.shadow.impliedIndex w a)), recordAddress a)
      else none := by
  suffices h : ∀ f, f = @enrichedAt → f s a = _ from h _ rfl
  delta enrichedAt
  rintro f rfl
  beta_reduce
  rw [hp, hw]

/-- A refused read outside every enriched record leaves the snapshots (log 20). -/
theorem reportRefusedRead_plain {s : State} {a : Address} (tag : Tag) (z : AccessSize) (h : enrichedAt s a = none) :
    reportRefusedRead tag a z s = s := by
  suffices k : ∀ f, f = @reportRefusedRead → f tag a z s = s from k _ rfl
  delta reportRefusedRead
  rintro f rfl
  beta_reduce
  rw [h]

/-- A refused read in an enriched record keeps its master's snapshot of that record, unless it covers the last word. -/
theorem reportRefusedRead_enriched {s : State} {a address : Address} {x : Enriched} {p : Snapshot} (tag : Tag)
    (z : AccessSize) (h : enrichedAt s a = some (x, address)) (hs : s.overlay.snapshots[tag] = some p) :
    reportRefusedRead tag a z s =
      if p.holds x address && !p.lastWordCovered a z then s else setSnapshot tag none s := by
  suffices k : ∀ f, f = @reportRefusedRead → f tag a z s = _ from k _ rfl
  delta reportRefusedRead
  rintro f rfl
  beta_reduce
  rw [h, hs]

theorem reportRefusedRead_empty {s : State} (a : Address) (tag : Tag) (z : AccessSize)
    (hs : s.overlay.snapshots[tag] = none) : reportRefusedRead tag a z s = s := by
  suffices k : ∀ f, f = @reportRefusedRead → f tag a z s = s from k _ rfl
  delta reportRefusedRead
  rintro f rfl
  beta_reduce
  rw [hs]
  cases enrichedAt s a <;> rfl

theorem holds_iff (p : Snapshot) (x : Enriched) (address : Address) :
    p.holds x address = true ↔ p.kind = x.kind ∧ p.address = address := by
  simp only [Snapshot.holds, Bool.and_eq_true, decide_eq_true_eq]

/-- The slot of a snapshot after the report of a refused read in a window (R162; log 20). -/
theorem reportRefusedRead_slot {s : State} {tag : Tag} {a : Address} {z : AccessSize} {w : WindowNo}
    (hp : pageOffset s a = none) (hw : matchedWindow s a = some w) :
    ∃ o : Option Snapshot,
      (o = s.overlay.snapshots[tag] ∨ o = none) ∧
      (s.shadow.recordKind w ≠ some .speed → o = s.overlay.snapshots[tag]) ∧
      (∀ p, s.overlay.snapshots[tag] = some p → s.shadow.recordKind w = some .speed →
        ¬ (p.kind = .speedRecord ∧ p.address = recordAddress a) → o = none) ∧
      reportRefusedRead tag a z s =
        s.withOverlay { s.overlay with snapshots := s.overlay.snapshots.set tag o } := by
  have keep : s = s.withOverlay { s.overlay with snapshots := s.overlay.snapshots.set tag s.overlay.snapshots[tag] } := by
    rw [Fin.getElem_fin, Vector.set_getElem_self]
    rfl
  by_cases hk : s.shadow.recordKind w = some .speed
  · have he := (enrichedAt_window hp hw).trans (if_pos hk)
    cases hs : s.overlay.snapshots[tag] with
    | none =>
      refine ⟨none, .inl rfl, fun _ => rfl, fun p h => (by cases h), ?_⟩
      rw [← hs, ← keep]
      exact reportRefusedRead_empty a tag z hs
    | some p =>
      by_cases kept : (p.holds (.speed (Fin.ofNat 8 (s.shadow.impliedIndex w a))) (recordAddress a) &&
          !p.lastWordCovered a z) = true
      · refine ⟨some p, .inl rfl, fun _ => rfl, fun p' h _ other => ?_, ?_⟩
        · obtain rfl : p = p' := Option.some.inj h
          exact absurd ((holds_iff _ _ _).1 (Bool.and_eq_true_iff.1 kept).1) other
        · rw [← hs, ← keep]
          exact (reportRefusedRead_enriched tag z he hs).trans (if_pos kept)
      · refine ⟨none, .inr rfl, fun h => absurd hk h, fun _ _ _ _ => rfl, ?_⟩
        exact (reportRefusedRead_enriched tag z he hs).trans (if_neg kept)
  · have he := (enrichedAt_window hp hw).trans (if_neg hk)
    refine ⟨_, .inl rfl, fun _ => rfl, fun p _ h => absurd h hk, ?_⟩
    rw [← keep]
    exact reportRefusedRead_plain tag z he

/-- Settles O8: the write is a refused write, and the read's report decides its master's slot. -/
theorem anAccessTheMaskRefusesIsAnsweredErr : Obligations.AnAccessTheMaskRefusesIsAnsweredErr := by
  refine ⟨fun c s tag a z d w hc h hw hm => ?_, fun c s tag a z w hc h hw hm => ?_⟩
  · rw [exec_write s hc, presentWrite_refused d h hw hm]
    exact done_of_eq (refuseWrite_eq tag tag.val s)
  · obtain ⟨o, slot, other, speed, report⟩ := reportRefusedRead_slot (tag := tag) (z := z) h.2.2 hw
    refine ⟨o, slot, other, speed, ?_⟩
    rw [exec_read s hc, presentRead_refused h hw hm, report]
    rfl

/-! ### Staging writes (R13 to R15) -/

theorem slot_put (g : Staging) (p q : Place) (r : Record) : (g.put p r).slot q = if q = p then r else g.slot q := by
  split
  · rename_i h
    subst h
    cases q <;> exact set_same _ _ _
  · rename_i h
    cases p with
    | demand b =>
      cases q with
      | demand c => exact set_other _ _ _ _ fun e => h (congrArg Place.demand e.symm)
      | speed => rfl
      | feedback => rfl
    | speed n =>
      cases q with
      | demand => rfl
      | speed m => exact set_other _ _ _ _ fun e => h (congrArg Place.speed e.symm)
      | feedback => rfl
    | feedback b =>
      cases q with
      | demand => rfl
      | speed => rfl
      | feedback c => exact set_other _ _ _ _ fun e => h (congrArg Place.feedback e.symm)

theorem active_iff (s : State) : s.active = true ↔ s.control.mode ≠ .setup := by simp [State.active]

/-- Where an access is matched (R9). -/
theorem matchedWindow_facts (s : State) (a : Address) :
    (s.control.mode = .setup → matchedWindow s a = none) ∧
      ((∀ w, ¬ Covers s.shadow w a) → matchedWindow s a = none) ∧
      (∀ w, s.control.mode ≠ .setup → OnlyCovers s.shadow w a → matchedWindow s a = some w) ∧
      (∀ w, matchedWindow s a = some w → Covers s.shadow w a) := by
  unfold matchedWindow
  by_cases h : s.active = true
  · rw [if_pos h]
    rw [active_iff] at h
    refine ⟨fun k => absurd k h, fun none => ?_, fun w _ only => windowAt_only _ only, fun w => windowAt_covers _⟩
    cases e : s.shadow.windowAt a with
    | none => rfl
    | some w => exact absurd (windowAt_covers _ e) (none w)
  · rw [if_neg h]
    rw [active_iff] at h
    exact ⟨fun _ => rfl, fun _ => rfl, fun w k => absurd k h, fun w k => by cases k⟩

/-- Settles O9: the treatment, the bytes of an image, and where an access is matched and located. -/
theorem aStagingWriteStoresItsBytes : Obligations.AStagingWriteStoresItsBytes := by
  refine ⟨fun s tag a z d w k h => ?_, ⟨fun s p a z d i _ => writeBytes_get _ _ _ _ i, slot_put⟩, matchedWindow_facts,
    fun sh w a => ?_⟩
  · rw [exec_write s (c := .stagingWrite tag a z d) rfl, presentWrite_staging d h]
    rfl
  · obtain ⟨demand, speed, feedback⟩ := recordKind_iff sh w
    obtain ⟨bogie, axle⟩ := placeAt_eq sh w a
    have guard (h : byteAt sh.windows[w] 4 = 4) : sh.recordKind w = none := by
      simp only [Shadow.recordKind, windowKind_eq, h]
    exact ⟨demand.2, speed.2, feedback.2, guard, bogie, axle, recordAddress_eq sh⟩

/-! ### Commits that are not accepted (R16, R17) -/

theorem rejectCommit_eq (tag : Tag) (w : WindowNo) (s : State) :
    rejectCommit tag w s =
      { s with
        notices := noted .recordRejected w.val s.timeBase s.notices
        overlay := released tag s.overlay
        bus := answered tag .err none } := rfl

section
variable (x : Access) (d : Word) (p : Place) (w : WindowNo) (s : State)

theorem commitTreatment_rejected (h : ownerPasses s p (slotImage s p x.address x.size d) = false) :
    commitTreatment x d p w s = rejectCommit x.tag w s := by
  have reject {b : Bool} (hb : b = false) : (!b) = true := by simp [hb]
  unfold commitTreatment
  cases p with
  | demand b => exact if_pos (reject h)
  | speed n => exact if_pos (reject h)
  | feedback b => exact if_pos (reject h)

theorem commitTreatment_retry (h : ownerPasses s p (slotImage s p x.address x.size d) = true) (full : ¬ HasRoom s) :
    commitTreatment x d p w s = answer x.tag .retry none s := by
  have pass {b : Bool} (hb : b = true) : ¬ (!b) = true := by simp [hb]
  rw [← full_iff] at full
  unfold commitTreatment
  cases p with
  | demand b => exact (if_neg (pass h)).trans (if_pos full)
  | speed n => exact (if_neg (pass h)).trans (if_pos full)
  | feedback b => exact (if_neg (pass h)).trans (if_pos full)

end

/-! ### The owners' checks (R26, R80, R142) -/

theorem ownerPasses_speed (s : State) (n : AxleNo) (r : Record) : ownerPasses s (.speed n) r = true ↔
    s.shadow.axleEnabled n = true ∧ r[0].toNat = n.val ∧ r[1].toNat ≤ 2 ∧ r[2].toNat ≤ 2 ∧
      (le16 r[4] r[5]).toNat ≤ 30000 := by
  simp only [ownerPasses, judgeSpeed, Bool.and_eq_true, beq_iff_eq, decide_eq_true_eq, and_assoc]
  rfl

theorem ownerPasses_feedback (s : State) (b : BogieNo) (r : Record) : ownerPasses s (.feedback b) r = true ↔
    r[0].toNat = b.val ∧ r[1].toNat ≤ 1 ∧ (le16 r[2] r[3]).toNat ≤ 1000 ∧ (le16 r[4] r[5]).toNat ≤ 1000 ∧
      -1000 ≤ (le16 r[6] r[7]).toInt ∧ (le16 r[6] r[7]).toInt ≤ 1000 ∧
      -1000 ≤ (le16 r[8] r[9]).toInt ∧ (le16 r[8] r[9]).toInt ≤ 1000 := by
  simp only [ownerPasses, judgeFeedback, Bool.and_eq_true, beq_iff_eq, decide_eq_true_eq, and_assoc]
  rfl

/-- A flags byte below 8 has bits 3 to 7 clear. -/
theorem flags_lt_iff (x : Byte) : x.toNat < 8 ↔ ∀ i, 3 ≤ i → i < 8 → x.getLsbD i = false := by
  constructor
  · intro h i hi _
    rw [← BitVec.testBit_toNat]
    have bound : 2 ^ 3 ≤ 2 ^ i := Nat.pow_le_pow_right (by omega) hi
    exact Nat.testBit_lt_two_pow (by omega)
  · intro h
    refine Nat.lt_pow_two_of_testBit (n := 3) _ fun i hi => ?_
    rw [BitVec.testBit_toNat]
    by_cases k : i < 8
    · exact h i hi k
    · exact BitVec.getLsbD_of_ge _ _ (by omega)

theorem tractionFits_iff (sh : Shadow) (b : BogieNo) (slot : Slot) (x : Half) : tractionFits sh b slot x.toNat = true ↔
    (∀ n, sh.axleAt b slot = some n → x.toNat ≤ sh.maximumEffort n) ∧ (sh.axleAt b slot = none → x = 0) := by
  unfold tractionFits
  cases sh.axleAt b slot with
  | none => simp [← BitVec.toNat_inj]
  | some n => simp

theorem ownerPasses_demand (s : State) (b : BogieNo) (r : Record) : ownerPasses s (.demand b) r = true ↔
    r[0].toNat ≤ 3 ∧ r[1].toNat ≤ 1 ∧ (∀ i, 3 ≤ i → i < 8 → r[2].getLsbD i = false) ∧
      (∀ n, s.shadow.axleAt b .a = some n → (le16 r[4] r[5]).toNat ≤ s.shadow.maximumEffort n) ∧
      (∀ n, s.shadow.axleAt b .b = some n → (le16 r[6] r[7]).toNat ≤ s.shadow.maximumEffort n) ∧
      (s.shadow.axleAt b .a = none → le16 r[4] r[5] = 0) ∧ (s.shadow.axleAt b .b = none → le16 r[6] r[7] = 0) ∧
      (le16 r[8] r[9]).toNat ≤ s.shadow.brakeLimit b ∧
      judgeDemandAgainst s b (Request.ofRecord r) = true := by
  have fitsA := tractionFits_iff s.shadow b .a (le16 r[4] r[5])
  have fitsB := tractionFits_iff s.shadow b .b (le16 r[6] r[7])
  simp only [ownerPasses, judgeDemand, judgeDemandFields, Bool.and_eq_true, decide_eq_true_eq, flags_lt_iff]
  constructor
  · rintro ⟨⟨⟨⟨⟨⟨mode, direction⟩, flags⟩, a⟩, b⟩, brake⟩, others⟩
    exact ⟨mode, direction, flags, (fitsA.1 a).1, (fitsB.1 b).1, (fitsA.1 a).2, (fitsB.1 b).2, brake, others⟩
  · rintro ⟨mode, direction, flags, a, b, a0, b0, brake, others⟩
    exact ⟨⟨⟨⟨⟨⟨mode, direction⟩, flags⟩, fitsA.2 ⟨a, a0⟩⟩, fitsB.2 ⟨b, b0⟩⟩, brake⟩, others⟩

/-- Settles O10: a commit is judged before the queue is looked at. -/
theorem aCommitNotAcceptedChangesNoOwner : Obligations.ACommitNotAcceptedChangesNoOwner := by
  refine ⟨fun c s tag a z d w k hc h judged => ?_, fun c s tag a z d w k hc h judged full => ?_, ownerPasses_speed,
    ownerPasses_feedback, ownerPasses_demand⟩
  · rw [exec_write s hc, presentWrite_commit d h, commitTreatment_rejected { tag := tag, address := a, size := z, write := some d } d _ w s judged]
    exact done_of_eq (rejectCommit_eq tag w s)
  · rw [exec_write s hc, presentWrite_commit d h, commitTreatment_retry { tag := tag, address := a, size := z, write := some d } d _ w s judged full]
    rfl

/-! ### An accepted FEEDBACK commit (R17, R81, R82) -/

/-- A record's class by its sequence (R27, R81). -/
theorem sequenceClass_duplicate (last : Option Byte) (q : Byte) :
    sequenceClass last q = .duplicate ↔ last = some q := by
  unfold sequenceClass
  cases last with
  | none => simp
  | some l =>
    simp only [Option.some.injEq]
    split_ifs with h1 h2
    · simp [h1]
    · simpa using fun e => h1 e.symm
    · simpa using fun e => h1 e.symm

theorem sequenceClass_gap (last : Option Byte) (q : Byte) :
    sequenceClass last q = .gap ↔ ∃ l, last = some l ∧ q ≠ l ∧ q ≠ l + 1 := by
  unfold sequenceClass
  cases last with
  | none => simp
  | some l =>
    simp only [Option.some.injEq, exists_eq_left']
    split_ifs with h1 h2
    · simp [h1]
    · simp [h2]
    · exact ⟨fun _ => ⟨h1, h2⟩, fun _ => rfl⟩

/-- The first record, and the one after the last, leave no gap. -/
theorem sequenceClass_ne_gap {last : Option Byte} {q : Byte} (h : last = none ∨ last = some (q - 1)) :
    sequenceClass last q ≠ .gap := by
  rw [ne_eq, sequenceClass_gap]
  rintro ⟨l, hl, -, hq⟩
  rcases h with h | h
  · exact absurd (h.symm.trans hl) (by simp)
  · obtain rfl : q - 1 = l := Option.some.inj (h.symm.trans hl)
    exact hq (by simp)

/-- The gate's evaluation reads the mode, the parameters, the standing requests, the feedback and the hold unit
(R96). -/
theorem evaluateGate_congr {s t : State} (h : SameInputs s t) : (evaluateGate t).hold = (evaluateGate s).hold := by
  have hold (u : State) : (evaluateGate u).hold =
      if (u.active && decide (u.hold.gate = .closed) && gateMayOpen u) = true then
        { u.hold with gate := .opened, releaseWait := none }
      else u.hold := by
    unfold evaluateGate
    split <;> rfl
  obtain ⟨_, _, _, _, _, _, _, _, _, rfl⟩ := h
  rw [hold, hold]
  rfl

/-- The gate's evaluation writes the hold unit alone. -/
theorem evaluateGate_frame (s : State) : evaluateGate s = { s with hold := (evaluateGate s).hold } := by
  rcases evaluateGate_eq s with h | ⟨-, h⟩
  · rw [h]
  · rw [h]
    rfl

/-- The feedback contexts after an applied record of bogie b (R81, R82). -/
def fedBack (b : BogieNo) (r : Record) (s : State) : Vector Feedback 4 :=
  s.feedback.set b
    { latest := some (FeedbackValues.ofRecord r)
      lastArrival := some s.timeBase
      lastSequence := some r[14]
      freshness := some s.timeBase
      granted := s.feedback[b].granted }

/-- The notices after the sequence class of bogie b's record (R27, R81). -/
def gapNoted (b : BogieNo) (q : Byte) (s : State) : Vector Notice 15 :=
  if sequenceClass s.feedback[b].lastSequence q = .gap then noted .seqGap (8 + b.val) s.timeBase s.notices
  else s.notices

theorem applyFeedback_duplicate {b : BogieNo} {r : Record} {s : State}
    (h : s.feedback[b].lastSequence = some r[14]) : applyFeedback b r s = s :=
  if_pos ((sequenceClass_duplicate _ _).2 h)

theorem applyFeedback_fresh {b : BogieNo} {r : Record} {s : State}
    (h : s.feedback[b].lastSequence ≠ some r[14]) :
    applyFeedback b r s =
      evaluateGate { s with notices := gapNoted b r[14] s, feedback := fedBack b r s } := by
  refine (if_neg ((sequenceClass_duplicate _ _).not.2 h)).trans ?_
  unfold gapNoted
  split <;> rfl

/-- An accepted commit on the state: the overlay unit hears of a write, the image is in the slot, the entry joined. -/
theorem acceptCommit_eq (x : Access) (p : Place) (image : Record) (k : EntryKind) (s : State) :
    acceptCommit x p image k s =
      { s with
        overlay := released x.tag s.overlay
        staging := s.staging.put p image
        emission := joined { kind := k, address := recordAddress x.address, tag := x.tag, retries := 0 } s.emission } := rfl

theorem feedbackCommitTreatment_accepted {x : Access} {b : BogieNo} {w : WindowNo} {image : Record} {s : State}
    (h : ownerPasses s (.feedback b) image = true) (room : HasRoom s) :
    feedbackCommitTreatment x b w image s =
      answer x.tag .ack none
        (applyFeedback b image (acceptCommit x (.feedback b) image (.feedbackRecord image) s)) := by
  have judged : judgeFeedback b image = true := h
  simp only [feedbackCommitTreatment, judged, full_of_room room, Bool.not_true, Bool.false_eq_true, if_false]

/-- Settles O12: the record is a duplicate, or it is applied and the gate evaluated. -/
theorem anAcceptedFeedbackCommitIsQueuedAndApplied : Obligations.AnAcceptedFeedbackCommitIsQueuedAndApplied := by
  intro s tag a z d w b r h hp hr owner room
  let x : Access := { tag := tag, address := a, size := z, write := some d }
  let u := acceptCommit x (.feedback b) r (.feedbackRecord r) s
  refine ⟨settle (answer tag .ack none (applyFeedback b r u)), ?_, ?_⟩
  · rw [exec_write s (c := .feedbackCommit tag a z d) rfl, presentWrite_commit d h, hp, commitTreatment]
    simp only
    rw [← hr, feedbackCommitTreatment_accepted owner room]
    rfl
  · by_cases dup : s.feedback[b].lastSequence = some r[14]
    · rw [applyFeedback_duplicate (s := u) dup]
      refine ⟨rfl, rfl, rfl, rfl, fun _ => ⟨rfl, rfl, rfl⟩, fun n => absurd dup n, fun q hq n => ?_, fun _ => rfl, rfl, rfl,
        rfl, rfl, rfl, rfl, rfl, rfl, rfl⟩
      exact absurd (Option.some.inj (dup.symm.trans hq)) n
    · rw [applyFeedback_fresh (s := u) dup, evaluateGate_frame]
      refine ⟨rfl, rfl, rfl, rfl, fun k => absurd k dup, fun _ => ⟨rfl, ?_⟩, fun q hq n1 n2 => ?_, fun k => ?_, rfl, rfl,
        rfl, rfl, rfl, rfl, rfl, rfl, rfl⟩
      · exact evaluateGate_congr ⟨_, _, _, _, _, _, _, _, _, rfl⟩
      · exact if_pos ((sequenceClass_gap _ _).2 ⟨q, hq, n1, n2⟩)
      · exact if_neg (sequenceClass_ne_gap k)

/-! ### An accepted DEMAND commit (R17, R60, R144) -/

theorem demandCommitTreatment_accepted {x : Access} {b : BogieNo} {w : WindowNo} {image : Record} {s : State}
    (h : ownerPasses s (.demand b) image = true) (room : HasRoom s) :
    demandCommitTreatment x b w image s =
      holdBus x (applyDemand b (acceptCommit x (.demand b) image (.demandCommit image) s)) := by
  have judged : judgeDemand s b image = true := h
  simp only [demandCommitTreatment, judged, full_of_room room, Bool.not_true, Bool.false_eq_true, if_false]

/-- After a demand the bogie is LIVE with its timer restarted; its standing request is as it was (R144). -/
def demanded (b : BogieNo) (s : State) : Vector Supervision 4 :=
  s.supervision.set b { standing := s.standing b, late := false, timer := some s.timeBase }

theorem applyDemand_live {b : BogieNo} {s : State} (h : s.supervision[b].late = false) :
    applyDemand b s = { s with supervision := demanded b s } := by
  simp only [applyDemand, h, Bool.false_eq_true, if_false]
  rfl

theorem allStanding_demanded (b : BogieNo) (s : State) :
    (demanded b s).map Supervision.standing = s.allStanding := by
  ext i hi
  by_cases h : b.val = i
  · subst h
    simp [State.allStanding, demanded, State.standing]
  · simp [State.allStanding, demanded, h]

/-- The axle records after the recovery of bogie b from LATE (R60). -/
def recovered (b : BogieNo) (s : State) : Vector Axle 8 :=
  Vector.ofFn fun n : Fin 8 =>
    if s.shadow.axleEnabled n && decide (s.shadow.axleBogie n = b) && decide (s.axles[n].state ≠ .stale) then
      s.axles[n].enterRecover 0 s.timeBase
    else s.axles[n]

/-- States in which an event finds the same, and with the same sander unit, take the same sander unit from it. -/
theorem SandersSee.unit {s t : State} (h : SandersSee s t) (hw : t.sand = s.sand) (standing : Vector Request 4)
    (issuing : Option BogieNo) : (sandersEvent standing issuing t).sand = (sandersEvent standing issuing s).sand := by
  rw [sandersEvent_sand _ _ t, sandersEvent_sand _ _ s, h.records, hw]

/-- A demand of a LATE bogie: its axles recover, at which the sanders react (R60, R110). -/
theorem applyDemand_late {b : BogieNo} {s : State} (h : s.supervision[b].late = true) :
    ∃ v r f, applyDemand b s =
        { s with
          supervision := demanded b s
          axles := recovered b s
          sand := { s.sand with sanders := v }
          emission := { s.emission with rewriteSet := r, decision := f } } ∧
      { s.sand with sanders := v } = (sandersEvent s.allStanding none { s with axles := recovered b s }).sand := by
  have split : applyDemand b s =
      sandersReact { s with supervision := demanded b s, axles := recovered b s } := by
    simp only [applyDemand, h, if_true]
    rfl
  have standing : ({ s with supervision := demanded b s, axles := recovered b s } : State).allStanding =
      s.allStanding := allStanding_demanded b s
  obtain ⟨v, r, f, e, -⟩ :=
    sandersReact_change { s with supervision := demanded b s, axles := recovered b s }
  refine ⟨v, r, f, split.trans e, ?_⟩
  have see : SandersSee { s with axles := recovered b s }
      { s with supervision := demanded b s, axles := recovered b s } :=
    ⟨rfl, rfl, rfl, rfl, rfl, fun _ => Iff.rfl, rfl, rfl⟩
  rw [← see.unit rfl, ← standing, ← sandersReact, e]

theorem recovered_axle (b : BogieNo) (s : State) (n : AxleNo) : (recovered b s)[n] =
    if s.shadow.axleEnabled n = true ∧ s.shadow.axleBogie n = b ∧ s.axles[n].state ≠ .stale then
      { s.axles[n] with state := .recover, ceilingBase := 0, recoverEntry := some s.timeBase }
    else s.axles[n] := by
  simp only [recovered, Fin.getElem_fin, Vector.getElem_ofFn, Bool.and_eq_true, decide_eq_true_eq, and_assoc]
  rfl

/-- Settles O14: a LIVE bogie's axles stay, and a LATE bogie's recover, at which the sanders react. -/
theorem anAcceptedDemandCommitIsQueuedAndApplied : Obligations.AnAcceptedDemandCommitIsQueuedAndApplied := by
  intro s tag a z d w b r h hp hr owner room
  let x : Access := { tag := tag, address := a, size := z, write := some d }
  let u := acceptCommit x (.demand b) r (.demandCommit r) s
  refine ⟨settle (holdBus x (applyDemand b u)), ?_, ?_⟩
  · rw [exec_write s (c := .demandCommit tag a z d) rfl, presentWrite_commit d h, hp, commitTreatment]
    simp only
    rw [← hr, demandCommitTreatment_accepted owner room]
    rfl
  · by_cases late : s.supervision[b].late = true
    · obtain ⟨v, rs, f, e, sand⟩ := applyDemand_late (s := u) late
      rw [e]
      have see : SandersSee { s with axles := recovered b u } { u with axles := recovered b u } :=
        ⟨rfl, rfl, rfl, rfl, rfl, fun _ => Iff.rfl, rfl, rfl⟩
      exact ⟨rfl, rfl, rfl, rfl, rfl, fun k => absurd (late.symm.trans k) (by simp), fun _ => sand.trans (see.unit rfl _ _),
        fun _ n => recovered_axle b u n, rfl, rfl, rfl, rfl, rfl, rfl, rfl, rfl, rfl, rfl, rfl⟩
    · have live : s.supervision[b].late = false := by simpa using late
      rw [applyDemand_live (s := u) live]
      exact ⟨rfl, rfl, rfl, rfl, rfl, fun _ => ⟨rfl, rfl⟩, fun k => absurd k late, fun k => absurd k late, rfl, rfl, rfl,
        rfl, rfl, rfl, rfl, rfl, rfl, rfl, rfl⟩

end Sys2Proof.Machine
end

section
/-! PROOFS. 01_access_handling_and_record_windows.md, 10_notices_the_alert_line_and_status_reads.md: accesses that join
the queue, reads under a snapshot, and the control page's refusals and reads (R8, R11, R19, R124, R160 to R167). -/

namespace Sys2Proof.Machine

/-! ### Pass-through accesses (R11, R19, R124) -/

theorem passWriteTreatment_taken {s : State} (x : Access) (d : Word) (room : HasRoom s) :
    passWriteTreatment x d s = takeNonPosted x (.passWrite x.size d) (reportWrite x.tag s) := by
  simp only [passWriteTreatment, full_of_room room, Bool.false_eq_true, if_false]

theorem passWriteTreatment_retry {s : State} (x : Access) (d : Word) (full : ¬ HasRoom s) :
    passWriteTreatment x d s = answer x.tag .retry none s := by
  simp only [passWriteTreatment, (full_iff s).2 full, if_true]

/-- A read taken into the queue after a report that wrote the overlay unit. -/
theorem takeRead_eq (x : Access) (k : EntryKind) (s : State) (o : Overlay) :
    takeNonPosted x k (s.withOverlay o) =
      { s with
        emission := joined { kind := k, address := x.address, tag := x.tag, retries := 0 } s.emission
        overlay := o
        bus := heldBy x } := rfl

theorem passReadTreatment_taken {s : State} {o : Overlay} (x : Access) (room : HasRoom s)
    (h : reportRead x.tag x.address x.size s = s.withOverlay o) :
    passReadTreatment x s = takeNonPosted x (.passRead x.size) (s.withOverlay o) := by
  simp only [passReadTreatment, full_of_room room, Bool.false_eq_true, if_false, h]

theorem passReadTreatment_retry {s : State} (x : Access) (full : ¬ HasRoom s) :
    passReadTreatment x s = answer x.tag .retry none s := by
  simp only [passReadTreatment, (full_iff s).2 full, if_true]

theorem pageReadTreatment_taken {s : State} {o : Overlay} (x : Access) (room : HasRoom s)
    (h : reportRead x.tag x.address x.size s = s.withOverlay o) :
    pageReadTreatment x s = takeNonPosted x (.pageRead x.size) (s.withOverlay o) := by
  simp only [pageReadTreatment, full_of_room room, Bool.false_eq_true, if_false, h]

theorem pageReadTreatment_retry {s : State} (x : Access) (full : ¬ HasRoom s) :
    pageReadTreatment x s = answer x.tag .retry none s := by
  simp only [pageReadTreatment, (full_iff s).2 full, if_true]

/-! ### The enriched record of an address (R160, R161) -/

theorem enrichedAt_unmatched {s : State} {a : Address} (hp : pageOffset s a = none) (hw : matchedWindow s a = none) :
    enrichedAt s a = none := by
  suffices h : ∀ f, f = @enrichedAt → f s a = none from h _ rfl
  delta enrichedAt
  rintro f rfl
  beta_reduce
  rw [hp, hw]

theorem enrichedAt_page {s : State} {a : Address} {off : Nat} (hp : pageOffset s a = some off) :
    enrichedAt s a =
      (enrichedInPage off).map fun x => (x, BitVec.ofNat 24 (a.toNat / x.kind.size * x.kind.size)) := by
  suffices h : ∀ f, f = @enrichedAt → f s a = _ from h _ rfl
  delta enrichedAt
  rintro f rfl
  beta_reduce
  rw [hp]
  dsimp only
  cases enrichedInPage off <;> rfl

/-! ### The report of a read (R161, R162) -/

theorem reportRead_plain {s : State} {a : Address} (tag : Tag) (z : AccessSize) (h : enrichedAt s a = none) :
    reportRead tag a z s = s.withOverlay { s.overlay with fixed := none } := by
  suffices k : ∀ f, f = @reportRead → f tag a z s = _ from k _ rfl
  delta reportRead
  rintro f rfl
  beta_reduce
  rw [h]

/-- The snapshot a read uses is one of the record read. -/
theorem usedSnapshot_record (slot : Option Snapshot) (live : Snapshot) :
    (usedSnapshot slot live).kind = live.kind ∧ (usedSnapshot slot live).address = live.address := by
  unfold usedSnapshot
  split
  · split
    · rename_i h
      exact h
    · exact ⟨rfl, rfl⟩
  · exact ⟨rfl, rfl⟩

theorem snapshotFor_eq (s : State) (tag : Tag) (x : Enriched) (address : Address) :
    snapshotFor s tag x address = usedSnapshot s.overlay.snapshots[tag] (captureSnapshot s x address) := by
  unfold snapshotFor usedSnapshot
  cases s.overlay.snapshots[tag] with
  | none => rfl
  | some p => exact if_congr (holds_iff p x address) rfl rfl

theorem keepUnlessLast_eq {p : Snapshot} {a address : Address} {k : EnrichedKind} (z : AccessSize) (hk : p.kind = k)
    (ha : p.address = address) : keepUnlessLast p a z =
      if k.size - 4 < a.toNat - address.toNat + z.bytes then none else some p := by
  subst hk ha
  unfold keepUnlessLast Snapshot.lastWordCovered
  simp only [decide_eq_true_eq]

/-- An accepted read of an enriched record is reported as the statements have it. -/
theorem reportRead_enriched {s : State} {a address : Address} {x : Enriched} (tag : Tag) (z : AccessSize)
    (h : enrichedAt s a = some (x, address)) :
    reportRead tag a z s =
      s.withOverlay (readOverlay s.overlay tag (captureSnapshot s x address) (a.toNat - address.toNat) z) := by
  suffices k : ∀ f, f = @reportRead → f tag a z s = _ from k _ rfl
  delta reportRead
  rintro f rfl
  beta_reduce
  rw [h]
  obtain ⟨kind, place⟩ := usedSnapshot_record s.overlay.snapshots[tag] (captureSnapshot s x address)
  simp only [snapshotFor_eq, keepUnlessLast_eq z kind place]
  rfl

/-- Settles O16: a write is reported, and a read outside every SPEED window fixes nothing. -/
theorem aPassThroughAccessJoinsTheQueue : Obligations.APassThroughAccessJoinsTheQueue := by
  refine ⟨fun s tag a z d h => ⟨fun room => ?_, fun full c hc => ?_⟩, fun s tag a z h plain room => ?_,
    fun c s tag a z hc h full => ?_⟩
  · rw [exec_write s (c := .passWrite tag a z d) rfl, presentWrite_passing d h, passWriteTreatment_taken _ d room]
    rfl
  · rw [exec_write s hc, presentWrite_passing d h, passWriteTreatment_retry _ d full]
    rfl
  · have enriched : enrichedAt s a = none := by
      obtain ⟨⟨-, -, hp⟩, -⟩ := h
      cases hw : matchedWindow s a with
      | none => exact enrichedAt_unmatched hp hw
      | some w => exact (enrichedAt_window hp hw).trans (if_neg (plain w hw))
    rw [exec_read s (c := .passRead tag a z) rfl, presentRead_passing h,
      passReadTreatment_taken _ room (reportRead_plain tag z enriched), takeRead_eq]
    rfl
  · rw [exec_read s hc, presentRead_passing h, passReadTreatment_retry _ full]
    rfl

theorem recordAddress_toNat (a : Address) : (recordAddress a).toNat = a.toNat / 16 * 16 := by
  have := a.isLt
  rw [recordAddress, BitVec.toNat_ofNat, Nat.mod_eq_of_lt (by omega)]

/-- Settles O17: the read is one of the enriched record of its SPEED window. -/
theorem aSpeedRecordReadFixesItsValues : Obligations.ASpeedRecordReadFixesItsValues := by
  intro s tag a z w n h hw hm hn hk room
  have axle : Fin.ofNat 8 (s.shadow.impliedIndex w a) = n := Place.speed.inj hn
  have enriched : enrichedAt s a = some (.speed n, recordAddress a) := by
    rw [enrichedAt_window h.2.2 hw, if_pos hk, axle]
  have offset : a.toNat - (recordAddress a).toNat = recordOffset a := by
    rw [recordAddress_toNat, recordOffset]
    omega
  have report := reportRead_enriched tag z enriched
  rw [offset] at report
  rw [exec_read s (c := .speedRecordRead tag a z) rfl, presentRead_passing ⟨h, .inr ⟨w, hw, hm⟩⟩,
    passReadTreatment_taken _ room report, takeRead_eq]
  rfl

/-! ### Refused page writes (R8, R166, R167) -/

theorem byteOf_zero_toNat (d : Word) : (byteOf d 0).toNat = d.toNat % 256 := by
  simp [byteOf, BitVec.extractLsb'_toNat]

theorem pageWriteTreatment_noticed {s : State} {x : Access} {d : Word} {off index : Nat}
    (h : decidePageWrite s x.tag off x.size d = .refuseWithNotice index) :
    pageWriteTreatment x d off s = refuseWrite x.tag index s := by
  simp only [pageWriteTreatment, h]

theorem pageWriteTreatment_refused {s : State} {x : Access} {d : Word} {off : Nat}
    (h : decidePageWrite s x.tag off x.size d = .refuse) :
    pageWriteTreatment x d off s = answer x.tag .err none (reportWrite x.tag s) := by
  simp only [pageWriteTreatment, h]

/-- A shadow table write outside SETUP (R166). -/
theorem decidePageWrite_table {s : State} {off : Nat} (z : AccessSize) (d : Word) (h1 : 0x40 ≤ off)
    (h2 : off < 0x1A0) (active : s.active = true) : decidePageWrite s 0 off z d = .refuseWithNotice 0 := by
  have region : ¬ (0x20 ≤ off ∧ off < 0x40) := by omega
  simp only [decidePageWrite, ne_eq, not_true_eq_false, if_false, region, h1, h2, and_self, if_true, active]

/-- A control record write that R167 refuses: an unknown mode code, or half a refill. -/
theorem decidePageWrite_control {s : State} {off : Nat} {z : AccessSize} {d : Word}
    (h : (off = 0x20 ∧ 2 < d.toNat % 256) ∨ (z = .byte ∧ 0x24 ≤ off ∧ off < 0x2C)) :
    decidePageWrite s 0 off z d = .refuse := by
  have region : 0x20 ≤ off ∧ off < 0x40 := by omega
  have refused : controlWriteRefused off z d = true := by
    simp only [controlWriteRefused, byteOf_zero_toNat, Bool.or_eq_true, Bool.and_eq_true, decide_eq_true_eq]
    exact h
  simp only [decidePageWrite, ne_eq, not_true_eq_false, if_false, region, and_self, if_true, refused]

/-- Settles O19: the decision on the write, by its master, its region and its data. -/
theorem aRefusedPageWriteIsAnsweredErr : Obligations.ARefusedPageWriteIsAnsweredErr := by
  intro c s tag a z d off hc h
  rw [exec_write s hc, presentWrite_page tag d h]
  refine ⟨fun other => ?_, ?_, ?_⟩
  · have decision : decidePageWrite s tag off z d = .refuseWithNotice tag.val := if_pos other
    rw [pageWriteTreatment_noticed decision]
    rfl
  · rintro rfl h1 h2 active
    rw [pageWriteTreatment_noticed (decidePageWrite_table z d h1 h2 active)]
    rfl
  · rintro rfl refused
    rw [pageWriteTreatment_refused (decidePageWrite_control refused)]
    rfl

/-! ### Reads of the page (R8, R124, R160 to R162) -/

/-- An address at an offset of the page (R164). -/
theorem pageOffset_some {s : State} {a : Address} {off : Nat} (h : pageOffset s a = some off) :
    a.toNat = s.pageBase + off ∧ off < 0x300 := by
  unfold pageOffset at h
  split at h
  · obtain rfl := Option.some.inj h
    omega
  · cases h

/-- The page's base is a multiple of 32, and the page lies in the address space (R164). -/
theorem pageBase_facts (s : State) : s.pageBase % 32 = 0 ∧ s.pageBase + 0x300 < 2 ^ 24 := by
  have := s.control.pagesel.isLt
  unfold State.pageBase
  omega

section
variable {s : State} {a : Address} {off : Nat} (h : pageOffset s a = some off)
include h

theorem enrichedAt_status (ho : off < 0x20) :
    enrichedAt s a = some (.status, BitVec.ofNat 24 s.pageBase) ∧
      a.toNat - (BitVec.ofNat 24 s.pageBase : Address).toNat = off := by
  obtain ⟨place, -⟩ := pageOffset_some h
  obtain ⟨aligned, bound⟩ := pageBase_facts s
  have region : enrichedInPage off = some .status := if_pos ho
  have start : a.toNat / 32 * 32 = s.pageBase := by omega
  refine ⟨?_, ?_⟩
  · rw [enrichedAt_page h, region]
    exact congrArg (fun k => some (Enriched.status, BitVec.ofNat 24 k)) start
  · rw [BitVec.toNat_ofNat, Nat.mod_eq_of_lt (by omega)]
    omega

theorem enrichedAt_noticeZero (h1 : 0x200 ≤ off) (h2 : off < 0x210) : enrichedAt s a = none := by
  have region : enrichedInPage off = none := by
    unfold enrichedInPage
    rw [if_neg (by omega), if_neg (by omega)]
  rw [enrichedAt_page h, region]
  rfl

theorem enrichedAt_notice (i : Fin 15) (h1 : 0x210 + 16 * i.val ≤ off) (h2 : off < 0x220 + 16 * i.val) :
    enrichedAt s a = some (.notice i, BitVec.ofNat 24 (s.pageBase + 0x210 + 16 * i.val)) ∧
      a.toNat - (BitVec.ofNat 24 (s.pageBase + 0x210 + 16 * i.val) : Address).toNat = off % 16 := by
  obtain ⟨place, -⟩ := pageOffset_some h
  obtain ⟨aligned, bound⟩ := pageBase_facts s
  have hi := i.isLt
  have code : Fin.ofNat 15 ((off - 0x200) / 16 - 1) = i := by
    have : (off - 0x200) / 16 - 1 = i.val := by omega
    rw [this]
    exact Fin.ext (Nat.mod_eq_of_lt hi)
  have region : enrichedInPage off = some (.notice i) := by
    unfold enrichedInPage
    rw [if_neg (by omega), if_pos (by omega), code]
  have start : a.toNat / 16 * 16 = s.pageBase + 0x210 + 16 * i.val := by omega
  refine ⟨?_, ?_⟩
  · rw [enrichedAt_page h, region]
    exact congrArg (fun k => some (Enriched.notice i, BitVec.ofNat 24 k)) start
  · rw [BitVec.toNat_ofNat, Nat.mod_eq_of_lt (by omega)]
    omega

end

/-! ### The bytes of a status read (Tables 11-8 and 11-9) -/

theorem ofNat_byte {n : Nat} (h : n < 256) : (BitVec.ofNat 8 n).toNat = n := by
  rw [BitVec.toNat_ofNat, Nat.mod_eq_of_lt h]

/-- The four masks of axles (R43, R63). -/
theorem axleMask_bits (s : State) (n : AxleNo) :
    ((freshMask s).getLsbD n.val = true ↔
      s.active = true ∧ s.shadow.axleEnabled n = true ∧ s.axles[n].state ≠ .stale) ∧
    ((slipMask s).getLsbD n.val = true ↔
      s.active = true ∧ s.shadow.axleEnabled n = true ∧ s.axles[n].state = .slip) ∧
    ((staleMask s).getLsbD n.val = true ↔
      s.active = true ∧ s.shadow.axleEnabled n = true ∧ s.axles[n].state = .stale) ∧
    ((persistentMask s).getLsbD n.val = true ↔ s.active = true ∧ s.axles[n].persistent = true) := by
  simp only [freshMask, slipMask, staleMask, persistentMask, maskOf_bit, Bool.and_eq_true, decide_eq_true_eq, and_assoc,
    and_self]

/-- The mask of bogies: LATE ones below, the rewrite set above (R126, R147). -/
theorem bogieMask_bits (s : State) (b : BogieNo) :
    ((lateAndRewriteMask s).getLsbD b.val = true ↔ s.active = true ∧ s.supervision[b].late = true) ∧
    ((lateAndRewriteMask s).getLsbD (4 + b.val) = true ↔ s.emission.rewriteSet[b] = true) := by
  have low : b.val < 4 := b.isLt
  have high : ¬ 4 + b.val < 4 := by omega
  have place : 4 + b.val - 4 = b.val := by omega
  simp only [lateAndRewriteMask, BitVec.getLsbD_append, low, high, place, if_true, if_false, maskOf_bit, Bool.and_eq_true,
    and_self]

/-- The sanders' bytes of the status record. -/
theorem deviceStatus_sander (s : State) (b : BogieNo) :
    (deviceStatus s).getD (20 + b.val) 0 = s.sand.sanders[b].state.code ∧
      le16 ((deviceStatus s).getD (24 + 2 * b.val) 0) ((deviceStatus s).getD (25 + 2 * b.val) 0) =
        s.sand.sanders[b].budget := by
  match b with
  | 0 => exact ⟨rfl, le16_byteOf _⟩
  | 1 => exact ⟨rfl, le16_byteOf _⟩
  | 2 => exact ⟨rfl, le16_byteOf _⟩
  | 3 => exact ⟨rfl, le16_byteOf _⟩

/-- Settles O26: the enriched record of each region of the page, and the bytes of the two records. -/
theorem aStatusReadFixesItsValues : Obligations.AStatusReadFixesItsValues := by
  refine ⟨fun s tag a z off h room => ⟨fun ho => ?_, fun h1 h2 => ?_, fun i h1 h2 => ?_⟩,
    fun c s tag a z off hc h full => ?_, fun s => ?_, fun s i => ?_⟩
  · obtain ⟨enriched, offset⟩ := enrichedAt_status h.2.2 ho
    have report := reportRead_enriched tag z enriched
    rw [offset] at report
    rw [exec_read s (c := .deviceStatusRead tag a z) rfl, presentRead_page tag h,
      pageReadTreatment_taken _ room report, takeRead_eq]
    rfl
  · have report := reportRead_plain tag z (enrichedAt_noticeZero h.2.2 h1 h2)
    rw [exec_read s (c := .noticeEntryRead tag a z) rfl, presentRead_page tag h,
      pageReadTreatment_taken _ room report, takeRead_eq]
    rfl
  · obtain ⟨enriched, offset⟩ := enrichedAt_notice h.2.2 i h1 h2
    have report := reportRead_enriched tag z enriched
    rw [offset] at report
    rw [exec_read s (c := .noticeEntryRead tag a z) rfl, presentRead_page tag h,
      pageReadTreatment_taken _ room report, takeRead_eq]
    rfl
  · rw [exec_read s hc, presentRead_page tag h, pageReadTreatment_retry _ full]
    rfl
  · have reason := s.control.rejectReason.isLt
    have top := topNotice_le s.notices
    refine ⟨rfl, ?_, ofNat_byte (by omega), ofNat_byte (by omega), ?_, ?_, ofNat_byte (by omega), ?_,
      fun n => axleMask_bits s n, fun b => ⟨(bogieMask_bits s b).1, (bogieMask_bits s b).2, ?_, ?_⟩, le16_byteOf _,
      le16_byteOf _, le32_byteOf _⟩
    · show s.control.mode.code = _
      cases s.control.mode <;> rfl
    · show s.hold.latch.code = _
      cases s.hold.latch <;> rfl
    · show s.hold.gate.code = _
      cases s.hold.gate <;> rfl
    · show s.control.fallbackCause.code = _
      cases s.control.fallbackCause <;> rfl
    · refine (deviceStatus_sander s b).1.trans ?_
      cases s.sand.sanders[b].state <;> rfl
    · exact (deviceStatus_sander s b).2
  · refine ⟨rfl, ofNat_byte (by omega), ?_, rfl, rfl, rfl, rfl, rfl, rfl, le32_byteOf _, le32_byteOf _⟩
    show BitVec.ofNat 8 s.notices[i].pending.toNat = _
    cases s.notices[i].pending <;> rfl

/-! ### Windows and the page after RUN validation (R9, R149) -/

theorem validate_overlaps {sh : Shadow} {page : Nat} (h : validate sh page = 0) : checkOverlaps sh page = true := by
  by_contra bad
  unfold validate at h
  split_ifs at h <;> simp_all

/-- Settles O27: an address in two windows, or in a window and the page, fails check 3. -/
theorem validWindowsShareNoAddress : Obligations.ValidWindowsShareNoAddress := by
  intro s a h
  have apart : RunCheck s.shadow s.pageBase 3 := (checkOverlaps_iff _ _).1 (validate_overlaps h)
  have use {w} (c : Covers s.shadow w a) : byteAt s.shadow.windows[w] 3 ≠ 0 := by
    have := c.1
    omega
  simp only [windowCovers_iff]
  refine ⟨fun w v cw cv => ?_, fun w cw => ?_⟩
  · exact ((apart v a.toNat (use cv) cv.2.2.1 cv.2.2.2).2 w (use cw) cw.2.2.1 cw.2.2.2)
  · exact if_neg (apart w a.toNat (use cw) cw.2.2.1 cw.2.2.2).1

/-! ### The invariants at reset -/

theorem active_reset : State.reset.active = false := rfl

theorem linesSettled_reset : LinesSettled State.reset :=
  (linesSettled_iff _).2 (lineLevels_low _ rfl routed_reset).symm

theorem noticesSound_reset : NoticesSound State.reset := by
  intro i
  rw [notice_reset]
  exact ⟨by decide, fun _ => rfl⟩

theorem emptySound_reset : EmptySound State.reset := by
  intro b
  rw [sander_reset, active_reset]
  simp [Sander.reset]

theorem timersSound_reset : TimersSound State.reset := by
  refine ⟨fun b _ => ?_, fun n _ => ?_⟩
  · rw [supervision_reset]
    rfl
  · rw [axle_reset]
    rfl

/-- Settles O54: each invariant on the blocks of power-on. -/
theorem theInvariantsHoldAtReset : Obligations.TheInvariantsHoldAtReset :=
  ⟨linesSettled_reset, noticesSound_reset, emptySound_reset, fun _ => rfl, fun h => absurd (active_reset.symm.trans h) (by simp),
    ⟨fun _ => rfl, fun _ => ⟨rfl, rfl⟩⟩, queueSound_reset rfl rfl, timersSound_reset, arbiterSound_reset⟩

end Sys2Proof.Machine
end

section
/-! PROOFS. 01_access_handling_and_record_windows.md, 02_wheel_speed_intake_and_the_reference_speed.md: an accepted SPEED
commit, from the class of its record to the sanders (R17, R27 to R31, R46, R101, R110). -/

namespace Sys2Proof.Machine

/-! ### What a sample leaves alone (R31) -/

/-- The blend unit and the demand supervisor are as they were. -/
def BlendKept (s t : State) : Prop := t.feedback = s.feedback ∧ t.supervision = s.supervision

theorem BlendKept.trans {s t u : State} (h : BlendKept s t) (k : BlendKept t u) : BlendKept s u :=
  ⟨k.1.trans h.1, k.2.trans h.2⟩

theorem SanderChange.blendKept {s t : State} (h : SanderChange s t) : BlendKept s t := by
  obtain ⟨_, _, _, rfl, -⟩ := h
  exact ⟨rfl, rfl⟩

theorem sandersReact_blend {s t : State} (h : BlendKept s t) : BlendKept s (sandersReact t) :=
  h.trans (sandersReact_change t).blendKept

theorem transition_blend (n : AxleNo) (s : State) : BlendKept s (transition n s) := by
  have slip : BlendKept s (enterSlip n s) := by
    obtain ⟨nt, em, h⟩ := enterSlip_event n s
    generalize (enterSlip n s).axles = ax at h
    exact h ▸ sandersReact_blend ⟨rfl, rfl⟩
  rcases transition_plan n (SameInputs.refl s) with ⟨h, -⟩ | ⟨x, -, h, -⟩ | ⟨x, -, h, -⟩ | ⟨h, -⟩
  · exact h ▸ slip
  · exact h ▸ ⟨rfl, rfl⟩
  · exact h ▸ sandersReact_blend (t := setAxle n x s) ⟨rfl, rfl⟩
  · exact h.symm ▸ ⟨rfl, rfl⟩

theorem evaluateVref_blend (n : AxleNo) (s : State) : BlendKept s (evaluateVref n s) := by
  obtain ⟨i, h, change, -⟩ := evaluateVref_change n s
  exact .trans (t := (s.withIntake i).withHold h) ⟨rfl, rfl⟩ change.blendKept

theorem latchRollback_blend (n : AxleNo) (s : State) : BlendKept s (latchRollback n s) := by
  obtain ⟨u, h, ⟨_, _, _, rfl⟩, -⟩ := latchRollback_event n s
  exact h ▸ sandersReact_blend ⟨rfl, rfl⟩

theorem storeSample_blend (n : AxleNo) (speed : Nat) (quality : Quality) (sensed : Option Direction) (s : State) :
    BlendKept s (storeSample n speed quality sensed s) := by
  have vref : BlendKept s (evaluateVref n (setAxle n (s.axles[n].store speed quality s.timeBase) s)) :=
    .trans (t := setAxle n (s.axles[n].store speed quality s.timeBase) s) ⟨rfl, rfl⟩ (evaluateVref_blend n _)
  have evaluated (u : State) : BlendKept u (evaluated n speed u) := ⟨rfl, rfl⟩
  have stored : BlendKept s (transition n (sampled n speed quality s)) :=
    (vref.trans (evaluated _)).trans (transition_blend n _)
  rw [storeSample_eq]
  split
  · exact stored.trans (latchRollback_blend n _)
  · exact stored

/-! ### The class of a record (R27 to R30) -/

/-- The state with the sequence of axle n's record noted, and SEQ_GAP raised where it leaves a gap. -/
def sequenced (n : AxleNo) (q : Byte) (s : State) : State :=
  { s with
    axles := s.axles.set n { s.axles[n] with lastSequence := some q }
    notices :=
      if sequenceClass s.axles[n].lastSequence q = .gap then noted .seqGap n.val s.timeBase s.notices
      else s.notices }

theorem sequenced_blend (n : AxleNo) (q : Byte) (s : State) : BlendKept s (sequenced n q s) := ⟨rfl, rfl⟩

theorem sequenced_notice (n : AxleNo) (q : Byte) (s : State) (j : Fin 15) (h : j ≠ NoticeKind.seqGap.slot) :
    (sequenced n q s).notices[j] = s.notices[j] := by
  unfold sequenced
  simp only
  split
  · exact noted_other _ _ _ _ j h
  · rfl

theorem sequenced_congr (n : AxleNo) (q : Byte) {s t : State} (h : SameInputs s t) (noticed : t.notices = s.notices) :
    (sequenced n q t).axles = (sequenced n q s).axles ∧ (sequenced n q t).notices = (sequenced n q s).notices := by
  unfold sequenced
  simp only [h.axles, h.timeBase, noticed, and_self]

/-- The quality of a sample that is none of a DROPOUT (Table 11-2). -/
def sampleQuality (r : Record) : Quality := if r[2] = 0 then .good else .noisy

theorem quality_sample {r : Record} (range : r[2].toNat ≤ 2) (h : r[2] ≠ 2) : Quality.ofCode r[2] = sampleQuality r := by
  unfold Quality.ofCode sampleQuality
  by_cases h0 : r[2] = 0
  · rw [if_pos h0, if_pos h0]
  · have h1 : r[2] = 1 := by
      have n0 : r[2].toNat ≠ 0 := fun e => h0 (BitVec.eq_of_toNat_eq e)
      have n2 : r[2].toNat ≠ 2 := fun e => h (BitVec.eq_of_toNat_eq e)
      exact BitVec.eq_of_toNat_eq (show r[2].toNat = 1 by omega)
    rw [if_neg h0, if_neg h0, if_pos h1]

section
variable {n : AxleNo} {r : Record} {s : State}

theorem applySpeed_duplicate (h : s.axles[n].lastSequence = some r[14]) : applySpeed n r s = s :=
  if_pos ((sequenceClass_duplicate _ _).2 h)

theorem applySpeed_dropout (h : s.axles[n].lastSequence ≠ some r[14]) (h2 : r[2] = 2) :
    applySpeed n r s = sequenced n r[14] s := by
  have quality : Quality.ofCode r[2] = .dropout := by rw [h2]; decide
  refine (if_neg ((sequenceClass_duplicate _ _).not.2 h)).trans ?_
  simp only [quality]
  unfold sequenced
  split <;> rfl

theorem applySpeed_sample (h : s.axles[n].lastSequence ≠ some r[14]) (range : r[2].toNat ≤ 2) (h2 : r[2] ≠ 2) :
    applySpeed n r s =
      storeSample n (recordSpeed r) (sampleQuality r) (sensedDirection r[1]) (sequenced n r[14] s) := by
  have noted : (if sequenceClass s.axles[n].lastSequence r[14] = .gap then
      raise .seqGap n.val (setAxle n { s.axles[n] with lastSequence := some r[14] } s)
      else setAxle n { s.axles[n] with lastSequence := some r[14] } s) = sequenced n r[14] s := by
    unfold sequenced
    split <;> rfl
  refine (if_neg ((sequenceClass_duplicate _ _).not.2 h)).trans ?_
  simp only [quality_sample range h2]
  rw [noted]
  by_cases h0 : r[2] = 0
  · simp only [sampleQuality, h0, if_true]
  · simp only [sampleQuality, h0, if_false]

end

/-- The record of a sample, its class and its application: what stays of the blocks beside the sample's own. -/
theorem applySpeed_blend (n : AxleNo) (r : Record) (s : State) (range : r[2].toNat ≤ 2) :
    BlendKept s (applySpeed n r s) := by
  by_cases dup : s.axles[n].lastSequence = some r[14]
  · rw [applySpeed_duplicate dup]
    exact ⟨rfl, rfl⟩
  · by_cases h2 : r[2] = 2
    · rw [applySpeed_dropout dup h2]
      exact sequenced_blend n _ s
    · rw [applySpeed_sample dup range h2]
      exact (sequenced_blend n _ s).trans (storeSample_blend _ _ _ _ _)

/-! ### The state in which a sample makes its transition (R31, R46) -/

/-- The state of the transition, from the axle's record as stored and the state after the evaluation of Vref. -/
theorem sampled_noted (n : AxleNo) (q : Byte) (speed : Nat) (quality : Quality) (s v : State) (stored : Axle)
    (hs : stored = ({ s.axles[n] with lastSequence := some q } : Axle).store speed quality s.timeBase)
    (hv : v = evaluateVref n { s with axles := s.axles.set n stored }) :
    sampled n speed quality (setAxle n { s.axles[n] with lastSequence := some q } s) =
      { v with
        axles := v.axles.set n
          { stored with
            acceleration := estimate s.shadow stored
            slip := (speed : Int) - (v.vref : Int) } } := by
  have own : (setAxle n { s.axles[n] with lastSequence := some q } s).axles[n] =
      { s.axles[n] with lastSequence := some q } := set_same _ _ _
  have twice : (setAxle n { s.axles[n] with lastSequence := some q } s).axles.set n stored =
      s.axles.set n stored := Vector.set_set ..
  refine sampled_eq n speed quality (setAxle n { s.axles[n] with lastSequence := some q } s) v stored ?_ ?_
  · rw [own]
    exact hs
  · rw [twice]
    exact hv

theorem evaluated_middle (n : AxleNo) (speed : Nat) (s : State) : MiddleChange s (evaluated n speed s) :=
  setAxle_middle _ _ _

theorem sampled_middle (n : AxleNo) (speed : Nat) (quality : Quality) (s : State) :
    MiddleChange s (sampled n speed quality s) :=
  ((setAxle_middle _ _ _).trans (evaluateVref_middle _ _)).trans (evaluated_middle _ _ _)

theorem sampled_notices (n : AxleNo) (speed : Nat) (quality : Quality) (s : State) :
    (sampled n speed quality s).notices = s.notices := by
  have written (t : State) : (evaluated n speed t).notices = t.notices := rfl
  obtain ⟨-, -, notices, -⟩ := evaluateVref_keeps n (setAxle n (s.axles[n].store speed quality s.timeBase) s)
  rw [sampled, written, notices]
  rfl

/-- What an evaluation of Vref leaves of the state it is made in. -/
theorem evaluateVref_frame {n : AxleNo} {s v : State} {x : Vector Axle 8}
    (hv : v = evaluateVref n { s with axles := x }) :
    v.axles = x ∧ v.hold.direction = s.hold.direction ∧ v.notices = s.notices ∧ v.shadow = s.shadow ∧
      v.timeBase = s.timeBase ∧ v.active = s.active := by
  obtain ⟨axles, direction, notices, -⟩ := evaluateVref_keeps n { s with axles := x }
  have middle := evaluateVref_middle n { s with axles := x }
  rw [← hv] at axles direction notices middle
  exact ⟨axles, direction, notices, middle.shadow, middle.timeBase, middle.active⟩

/-- The axle records in which a sample makes its transition. -/
theorem sampled_record {n : AxleNo} {s v u : State} {stored x : Axle}
    (hv : v = evaluateVref n { s with axles := s.axles.set n stored })
    (hu : u = { v with axles := v.axles.set n x }) : u.axles = s.axles.set n x := by
  rw [hu, (evaluateVref_frame hv).1]
  exact Vector.set_set ..

/-- The estimator reads the ring, the position and the fill alone (R47, R48). -/
theorem estimate_congr (sh : Shadow) {x y : Axle} (h1 : x.ring = y.ring) (h2 : x.position = y.position)
    (h3 : x.fill = y.fill) : estimate sh x = estimate sh y := by
  cases x
  cases y
  simp only at h1 h2 h3
  subst h1 h2 h3
  rfl

/-! ### An applied sample (R31, R46, R101, R110) -/

theorem SameSand.renoticed {s t : State} (h : SameSand s t) (x : Vector Notice 15) : SameSand s (t.withNotices x) := by
  obtain ⟨⟨_, _, _, _, _, _, _, _, _, rfl⟩, hs, hr⟩ := h
  exact ⟨⟨_, _, _, _, _, _, _, _, _, rfl⟩, hs, hr⟩

/-- What an applied sample of axle n leaves in a state, by the state `u` in which it makes its transition. -/
structure SampleApplied (n : AxleNo) (q : Byte) (detected : Prop) (s u t : State) : Prop where
  axles : t.axles = (transition n u).axles
  intake : t.intake = u.intake
  notices : ∀ j : Fin 15, j ≠ NoticeKind.rollback.slot → j ≠ NoticeKind.seqGap.slot →
    t.notices[j] = (transition n u).notices[j]
  gap : t.notices[NoticeKind.seqGap.slot] = (sequenced n q s).notices[NoticeKind.seqGap.slot]
  request : u.axles[n].state ≠ .slip → t.axles[n].state = .slip →
    t.emission.rewriteSet[s.shadow.axleBogie n] = true
  latched : detected → t.hold = (latchRollback n u).hold ∧ t.hold.latch = .latched ∧
    t.notices[NoticeKind.rollback.slot] =
      s.notices[NoticeKind.rollback.slot].raised (BitVec.ofNat 8 n.val) s.timeBase ∧
    ∀ b, s.shadow.counts b = true → t.emission.rewriteSet[b] = true
  unlatched : ¬ detected → t.hold = u.hold ∧ t.notices[NoticeKind.rollback.slot] = s.notices[NoticeKind.rollback.slot]
  sandLatched : detected → t.sand = (latchRollback n (transition n u)).sand ∧
    t.emission.rewriteSet = (latchRollback n (transition n u)).emission.rewriteSet
  sand : ¬ detected → t.sand = (transition n u).sand ∧ t.emission.rewriteSet = (transition n u).emission.rewriteSet

/-- An applied sample rewrites the record of its axle alone, and keeps in it what the intake wrote. -/
theorem SampleApplied.record {n : AxleNo} {q : Byte} {detected : Prop} {s u t : State}
    (h : SampleApplied n q detected s u t) {x : Axle} (hu : u.axles = s.axles.set n x) :
    ∃ y : Axle, t.axles = s.axles.set n y ∧ y.SameSample x := by
  obtain ⟨y, hy, same, -, -⟩ := transition_axles n u
  have own : u.axles[n] = x := by
    rw [hu]
    exact set_same _ _ _
  refine ⟨y, ?_, own ▸ same⟩
  rw [h.axles, hy, hu]
  exact Vector.set_set ..

theorem sampleQuality_good (r : Record) : sampleQuality r = .good ↔ r[2] = 0 := by
  unfold sampleQuality
  split
  · rename_i h
    exact ⟨fun _ => h, fun _ => rfl⟩
  · rename_i h
    exact ⟨fun k => (by cases k), fun k => absurd k h⟩

/-- A sample applied in a state that shows it the same as another is what it is in the other. -/
theorem sampleApplied {n : AxleNo} {r : Record} {s a u : State} (same : SameSand s a) (noticed : a.notices = s.notices)
    (active : s.active = true) (fresh : s.axles[n].lastSequence ≠ some r[14]) (range : r[2].toNat ≤ 2)
    (h2 : r[2] ≠ 2)
    (hu : u = sampled n (recordSpeed r) (sampleQuality r)
      (setAxle n { s.axles[n] with lastSequence := some r[14] } s)) :
    SampleApplied n r[14]
      (sampleQuality r = .good ∧ sensedDirection r[1] = some u.hold.direction.opposite ∧
        u.shadow.rollbackSpeed ≤ recordSpeed r ∧ u.hold.latch ≠ .latched)
      s u (applySpeed n r a) := by
  have inputs := same.1
  have seen := (sequenced_congr n r[14] inputs noticed).2
  have base : SameSand (setAxle n { s.axles[n] with lastSequence := some r[14] } s) (sequenced n r[14] a) := by
    have moved := same.setAxle n { s.axles[n] with lastSequence := some r[14] }
    have split : sequenced n r[14] a =
        (setAxle n { a.axles[n] with lastSequence := some r[14] } a).withNotices (sequenced n r[14] a).notices := rfl
    rw [split, inputs.axles]
    exact moved.renoticed _
  have alike := base.sampled n (recordSpeed r) (sampleQuality r)
  have before : u.notices = s.notices := by
    rw [hu]
    exact sampled_notices ..
  rw [← hu] at alike
  rw [applySpeed_sample (by rw [inputs.axles]; exact fresh) range h2]
  have clock : u.timeBase = s.timeBase ∧ u.shadow = s.shadow ∧ u.active = true := by
    have middle := sampled_middle n (recordSpeed r) (sampleQuality r)
      (setAxle n { s.axles[n] with lastSequence := some r[14] } s)
    rw [← hu] at middle
    exact ⟨middle.timeBase, middle.shadow, middle.active.trans active⟩
  have after := (sampled_notices n (recordSpeed r) (sampleQuality r) (sequenced n r[14] a)).trans seen
  have facts := storeSample_facts n (recordSpeed r) (sampleQuality r) (sensedDirection r[1]) (sequenced n r[14] a)
    _ rfl (alike.1.active.trans clock.2.2)
  generalize sampled n (recordSpeed r) (sampleQuality r) (sequenced n r[14] a) = u' at alike after facts
  generalize storeSample n (recordSpeed r) (sampleQuality r) (sensedDirection r[1]) (sequenced n r[14] a) = t at facts ⊢
  obtain ⟨kTime, kShadow, kActive⟩ := clock
  have other (j : Fin 15) (h : j ≠ NoticeKind.seqGap.slot) : u'.notices[j] = s.notices[j] := by
    rw [after]
    exact sequenced_notice n _ s j h
  have moved := transition_congr n alike.1
  have sanders := alike.transition n
  have latching := sanders.latchRollback n
  simp only [alike.1.axles, alike.1.intake, alike.1.hold, alike.1.shadow, alike.1.timeBase, kShadow, kTime] at facts
  obtain ⟨axles, intake, notices, request, latched, unlatched, sandLatched, sand⟩ := facts
  rw [kShadow]
  refine ⟨axles.trans moved.1, intake, fun j hr hg => ?_, ?_, fun h0 h1 => ?_, fun d => ?_, fun d => ?_, fun d => ?_,
    fun d => ?_⟩
  · exact (notices j hr).trans (moved.2 j ((other j hg).trans (congrArg (·[j]) before.symm)))
  · refine (notices _ (by decide)).trans ((transition_notices n u' _ (by decide) (by decide)).trans ?_)
    rw [after]
  · exact request h0 h1
  · obtain ⟨hold, latch, notice, requests⟩ := latched d
    refine ⟨hold.trans ?_, latch, notice.trans ?_, requests⟩
    · exact latchRollback_hold_congr n alike.1.hold alike.1.supervision alike.1.shadow alike.1.timeBase alike.1.active
    · rw [other _ (by decide)]
  · obtain ⟨hold, notice⟩ := unlatched d
    exact ⟨hold, notice.trans (other _ (by decide))⟩
  · rw [sandLatched d]
    exact latching.2
  · rw [sand d]
    exact sanders.2

/-! ### The accepted commit (R17, R18) -/

theorem speedCommitTreatment_accepted {x : Access} {n : AxleNo} {w : WindowNo} {image : Record} {s : State}
    (h : ownerPasses s (.speed n) image = true) (room : HasRoom s) :
    speedCommitTreatment x n w image s =
      answer x.tag .ack none (applySpeed n image (acceptCommit x (.speed n) image (.speedRecord image) s)) := by
  have judged : (s.shadow.axleEnabled n && judgeSpeed n image) = true := h
  simp only [speedCommitTreatment, judged, full_of_room room, Bool.not_true, Bool.false_eq_true, if_false]

/-- What an accepted SPEED commit leaves, whatever its record's class: the image in its slot, the entry, and every block
that no sample moves. -/
structure SpeedAccepted (x : Access) (n : AxleNo) (r : Record) (s t : State) : Prop where
  staging : t.staging = s.staging.put (.speed n) r
  overlay : t.overlay = released x.tag s.overlay
  queue : t.emission.queue =
    s.emission.queue ++ [{ kind := .speedRecord r, address := recordAddress x.address, tag := x.tag, retries := 0 }]
  timeBase : t.timeBase = s.timeBase
  control : t.control = s.control
  shadow : t.shadow = s.shadow
  blend : BlendKept s t
  streak : t.emission.streak = s.emission.streak
  inFlight : t.emission.inFlight = s.emission.inFlight
  races : t.races = s.races
  pending : t.pending = s.pending

theorem speedAccepted (x : Access) (n : AxleNo) (r : Record) (s : State) (range : r[2].toNat ≤ 2) :
    SpeedAccepted x n r s (applySpeed n r (acceptCommit x (.speed n) r (.speedRecord r) s)) := by
  have middle := applySpeed_middle n r (acceptCommit x (.speed n) r (.speedRecord r) s)
  have blend := applySpeed_blend n r (acceptCommit x (.speed n) r (.speedRecord r) s) range
  generalize applySpeed n r (acceptCommit x (.speed n) r (.speedRecord r) s) = t at middle blend
  exact ⟨middle.staging, middle.overlay, middle.queue, middle.timeBase, middle.control, middle.shadow, blend,
    middle.streak, middle.inFlight, middle.races, middle.pending⟩

/-- An access is matched outside SETUP alone (R9). -/
theorem active_of_matched {s : State} {a : Address} {w : WindowNo} (h : matchedWindow s a = some w) :
    s.active = true := by
  by_contra setup
  have none := (matchedWindow_facts s a).1 (by simpa [active_iff] using setup)
  exact absurd (none.symm.trans h) (by simp)

/-- Settles O11: the record is a duplicate, a DROPOUT, or a sample applied in a state that shows it what the state before
the commit did. -/
theorem anAcceptedSpeedCommitIsQueuedAndApplied : Obligations.AnAcceptedSpeedCommitIsQueuedAndApplied := by
  intro s tag a z d w n r h hp hr owner room
  let x : Access := { tag := tag, address := a, size := z, write := some d }
  obtain ⟨-, -, -, range, -⟩ := (ownerPasses_speed s n r).1 owner
  have active := active_of_matched h.1.2.1
  refine ⟨settle (answer tag .ack none (applySpeed n r (acceptCommit x (.speed n) r (.speedRecord r) s))), ?_, rfl, ?_⟩
  · rw [exec_write s (c := .speedCommit tag a z d) rfl, presentWrite_commit d h, hp, commitTreatment]
    simp only
    rw [← hr, speedCommitTreatment_accepted owner room]
    rfl
  have frame := speedAccepted x n r s range
  have same : SameSand s (acceptCommit x (.speed n) r (.speedRecord r) s) := ⟨⟨_, _, _, _, _, _, _, _, _, rfl⟩, rfl, rfl⟩
  have noticed : (acceptCommit x (.speed n) r (.speedRecord r) s).notices = s.notices := rfl
  generalize acceptCommit x (.speed n) r (.speedRecord r) s = c at frame same noticed ⊢
  have inputs := same.1
  have gap {q : Byte} (hq : s.axles[n].lastSequence = some q) (n1 : r[14] ≠ q) (n2 : r[14] ≠ q + 1) :
      (sequenced n r[14] s).notices[NoticeKind.seqGap.slot] =
        s.notices[NoticeKind.seqGap.slot].raised (BitVec.ofNat 8 n.val) s.timeBase := by
    rw [sequenced, if_pos ((sequenceClass_gap _ _).2 ⟨q, hq, n1, n2⟩)]
    exact noted_same _ _ _ _
  have noGap (hq : s.axles[n].lastSequence = none ∨ s.axles[n].lastSequence = some (r[14] - 1)) :
      (sequenced n r[14] s).notices[NoticeKind.seqGap.slot] = s.notices[NoticeKind.seqGap.slot] := by
    rw [sequenced, if_neg (sequenceClass_ne_gap hq)]
  by_cases dup : s.axles[n].lastSequence = some r[14]
  · rw [applySpeed_duplicate (by rw [inputs.axles]; exact dup)] at frame ⊢
    refine ⟨frame.staging, frame.overlay, frame.queue, ?_, fun m _ => ?_,
      fun _ => ⟨inputs.axles, inputs.intake, inputs.hold, same.2.1, noticed, same.2.2⟩, fun k => absurd dup k,
      fun k => absurd dup k, fun q hq n1 => absurd (Option.some.inj (dup.symm.trans hq)) n1, fun _ => ?_,
      frame.timeBase, frame.control, frame.shadow, frame.blend.1, frame.blend.2, frame.streak, frame.inFlight, frame.races,
      frame.pending⟩
    · exact (congrArg (fun v : Vector Axle 8 => v[n].lastSequence) inputs.axles).trans dup
    · exact congrArg (fun v : Vector Axle 8 => v[m]) inputs.axles
    · exact congrArg (fun v : Vector Notice 15 => v[NoticeKind.seqGap.slot]) noticed
  · by_cases dropout : r[2] = 2
    · rw [applySpeed_dropout (by rw [inputs.axles]; exact dup) dropout] at frame ⊢
      obtain ⟨axles, notices⟩ := sequenced_congr n r[14] inputs noticed
      have kept : (sequenced n r[14] c).intake = s.intake ∧ (sequenced n r[14] c).hold = s.hold ∧
          (sequenced n r[14] c).sand = s.sand ∧
          (sequenced n r[14] c).emission.rewriteSet = s.emission.rewriteSet :=
        ⟨inputs.intake, inputs.hold, same.2.1, same.2.2⟩
      generalize sequenced n r[14] c = t at frame axles notices kept ⊢
      have axle (m : AxleNo) : t.axles[m] = (sequenced n r[14] s).axles[m] := congrArg (·[m]) axles
      have gapNotice : t.notices[NoticeKind.seqGap.slot] = (sequenced n r[14] s).notices[NoticeKind.seqGap.slot] :=
        congrArg (·[NoticeKind.seqGap.slot]) notices
      refine ⟨frame.staging, frame.overlay, frame.queue, ?_, fun m hm => (axle m).trans (set_other _ _ _ _ hm.symm),
        fun k => absurd k dup, fun _ _ => ⟨axles, kept⟩, fun _ k => absurd dropout k,
        fun q hq n1 n2 => gapNotice.trans (gap hq n1 n2), fun hq => gapNotice.trans (noGap hq), frame.timeBase,
        frame.control, frame.shadow, frame.blend.1, frame.blend.2, frame.streak, frame.inFlight, frame.races,
        frame.pending⟩
      exact congrArg Axle.lastSequence ((axle n).trans (set_same _ _ _))
    · obtain ⟨stored, hs⟩ := exists_eq
        (a' := ({ s.axles[n] with lastSequence := some r[14] } : Axle).store (recordSpeed r) (sampleQuality r) s.timeBase)
      obtain ⟨v, hv⟩ := exists_eq (a' := evaluateVref n { s with axles := s.axles.set n stored })
      obtain ⟨u, hu⟩ := exists_eq
        (a' := ({ v with
          axles := v.axles.set n
            { stored with
              acceleration := estimate s.shadow stored
              slip := (recordSpeed r : Int) - (v.vref : Int) } } : State))
      have applied := sampleApplied same noticed active dup range dropout
        (hu.trans (sampled_noted n r[14] (recordSpeed r) (sampleQuality r) s v stored hs hv).symm)
      obtain ⟨-, direction, -, shadow, -, -⟩ := evaluateVref_frame hv
      obtain ⟨uShadow, uHold, uIntake⟩ : u.shadow = v.shadow ∧ u.hold = v.hold ∧ u.intake = v.intake := by
        rw [hu]
        exact ⟨rfl, rfl, rfl⟩
      have written := sampled_record hv hu
      obtain ⟨y, axles, ring, position, fill, latest, arrival, sequence, staleness, slip, acceleration⟩ :=
        applied.record written
      generalize applySpeed n r c = t at frame applied axles ⊢
      have own : t.axles[n] = y := by
        rw [axles]
        exact set_same _ _ _
      have rest (m : AxleNo) (hm : m ≠ n) : t.axles[m] = s.axles[m] := by
        rw [axles]
        exact set_other _ _ _ _ hm.symm
      have before : u.axles[n].state = s.axles[n].state := by
        rw [written]
        refine (congrArg Axle.state (set_same _ _ _)).trans ?_
        rw [hs]
        rfl
      rw [uHold, uShadow, shadow, direction, sampleQuality_good] at applied
      refine ⟨frame.staging, frame.overlay, frame.queue, ?_, rest, fun k => absurd k dup,
        fun _ k => absurd k dropout, fun _ _ => ?_, fun q hq n1 n2 => applied.gap.trans (gap hq n1 n2),
        fun hq => applied.gap.trans (noGap hq), frame.timeBase,
        frame.control, frame.shadow, frame.blend.1, frame.blend.2, frame.streak, frame.inFlight, frame.races,
        frame.pending⟩
      · refine (congrArg Axle.lastSequence own).trans (sequence.trans ?_)
        rw [hs]
        rfl
      · intro quality stored' v' u' detected
        have storedEq : stored' = stored := hs.symm
        have vEq : v' = v := (congrArg (fun x => evaluateVref n { s with axles := s.axles.set n x }) storedEq).trans hv.symm
        have uEq : u' = u := by
          rw [hu, ← vEq, ← storedEq]
        have vref : t.vref = v.vref := congrArg (fun x : Intake => x.vref.getD 0) (applied.intake.trans uIntake)
        have estimated : estimate s.shadow t.axles[n] = estimate s.shadow stored := by
          rw [own]
          exact estimate_congr _ ring position fill
        have alike : t.axles[n] = (transition n u).axles[n] := congrArg (fun x : Vector Axle 8 => x[n]) applied.axles
        clear_value u' v' stored'
        subst uEq vEq storedEq
        have kept {α : Type} {f : Axle → α} (h : f y = f stored') : f t.axles[n] = f stored' := (congrArg f own).trans h
        refine ⟨(kept latest).trans (by rw [hs]; rfl), (kept arrival).trans (by rw [hs]; rfl),
          (kept staleness).trans (by rw [hs]; rfl), (kept ring).trans (by rw [hs]; rfl),
          (kept position).trans (by rw [hs]; rfl), (kept fill).trans (by rw [hs]; rfl), applied.intake.trans uIntake, ?_, ?_,
          alike, applied.notices _ (by decide) (by decide), applied.notices _ (by decide) (by decide),
          fun h0 h1 => applied.request (by rw [before]; exact h0) h1, applied.latched, ?_, applied.sandLatched,
          applied.sand⟩
        · rw [show (settle (answer tag .ack none t)).vref = t.vref from rfl, vref]
          exact (congrArg Axle.slip own).trans slip
        · exact ((congrArg Axle.acceleration own).trans acceleration).trans estimated.symm
        · intro undetected
          obtain ⟨hold, notice⟩ := applied.unlatched undetected
          exact ⟨hold.trans uHold, notice⟩

end Sys2Proof.Machine
end

section
/-! PROOFS. 01_access_handling_and_record_windows.md: the issues of record bursts and demand bursts, and what a failure
of the D-port does (R130 to R138). -/

namespace Sys2Proof.Machine

/-! ### Record bursts (R34, R85, R135) -/

/-- Below its check byte a filled record holds the owned byte, or else the record's own. -/
theorem fillRecord_below (r : Record) (owned : List (Option Byte)) (i : Fin 16) (h : i.val ≠ 15) :
    (fillRecord r owned)[i] = (owned.getD i.val none).getD r[i] := by
  simp only [fillRecord, Fin.getElem_fin]
  rw [Vector.getElem_set_ne (h := Ne.symm h), Vector.getElem_ofFn]

theorem fillRecord_check (r : Record) (owned : List (Option Byte)) :
    (fillRecord r owned)[15] = ~~~ r[14] :=
  Vector.getElem_set_self _

theorem exec_record_issue (s : State) (x : Entry) (h : headMayIssue s.emission = true)
    (hx : s.emission.queue.head? = some x) (r : Record) :
    (x.kind = .speedRecord r → exec .recordBurstIssue s =
      done (issueRecord x (fillRecord r (speedOwned s (s.shadow.speedAxle x.address))) s)) ∧
    (x.kind = .feedbackRecord r → exec .recordBurstIssue s =
      done (issueRecord x (fillRecord r (feedbackOwned s (s.shadow.feedbackBogie x.address))) s)) := by
  have hi := (issuingHead_some s x).2 ⟨h, hx⟩
  refine ⟨fun hk => ?_, fun hk => ?_⟩
  · show execRecordBurstIssue s = _
    simp only [execRecordBurstIssue, hi, hk]
  · show execRecordBurstIssue s = _
    simp only [execRecordBurstIssue, hi, hk]

/-- The part-owned bytes of a speed record: the state, the arrival stamp, slip, acceleration and reference (R34). -/
theorem fillRecord_speed (s : State) (n : AxleNo) (r : Record) :
    let f := fillRecord r (speedOwned s n)
    (∀ i : Fin 16, i.val ∈ [0, 1, 2, 4, 5, 14] → f[i] = r[i]) ∧ f[15] = ~~~ r[14] ∧
      f[3] = s.axles[n].state.code ∧ le16 f[6] f[7] = stampOr0 s.axles[n].lastArrival ∧
      le16 f[8] f[9] = BitVec.ofInt 16 s.axles[n].slip ∧
      le16 f[10] f[11] = BitVec.ofInt 16 s.axles[n].acceleration ∧
      le16 f[12] f[13] = BitVec.ofNat 16 s.vref := by
  intro f
  have at_ (i : Fin 16) (hi : i.val ≠ 15) := fillRecord_below r (speedOwned s n) i hi
  refine ⟨fun i hi => ?_, fillRecord_check r _, at_ 3 (by decide), ?_, ?_, ?_, ?_⟩
  · have hne : i.val ≠ 15 := by rintro h; simp [h] at hi
    have none_ : (speedOwned s n).getD i.val none = none := by
      simp only [List.mem_cons, List.not_mem_nil, or_false] at hi
      rcases hi with h | h | h | h | h | h
      all_goals rw [h]; rfl
    rw [at_ i hne, none_]
    rfl
  · exact (congrArg₂ le16 (at_ 6 (by decide)) (at_ 7 (by decide))).trans (le16_byteOf _)
  · exact (congrArg₂ le16 (at_ 8 (by decide)) (at_ 9 (by decide))).trans (le16_byteOf _)
  · exact (congrArg₂ le16 (at_ 10 (by decide)) (at_ 11 (by decide))).trans (le16_byteOf _)
  · exact (congrArg₂ le16 (at_ 12 (by decide)) (at_ 13 (by decide))).trans (le16_byteOf _)

/-- The part-owned bytes of a feedback record: the arrival stamp and the granted effort (R85). -/
theorem fillRecord_feedback (s : State) (b : BogieNo) (r : Record) :
    let f := fillRecord r (feedbackOwned s b)
    (∀ i : Fin 16, (i.val < 10 ∨ i.val = 14) → f[i] = r[i]) ∧ f[15] = ~~~ r[14] ∧
      le16 f[10] f[11] = stampOr0 s.feedback[b].lastArrival ∧
      le16 f[12] f[13] = BitVec.ofNat 16 s.feedback[b].granted := by
  intro f
  have at_ (i : Fin 16) (hi : i.val ≠ 15) := fillRecord_below r (feedbackOwned s b) i hi
  refine ⟨fun i hi => ?_, fillRecord_check r _, ?_, ?_⟩
  · have none_ : (feedbackOwned s b).getD i.val none = none := by
      rcases hi with h | h
      · have h := List.mem_range.2 h
        revert h
        generalize i.val = k
        intro h
        simp only [List.mem_range] at h
        interval_cases k <;> rfl
      · rw [h]; rfl
    rw [at_ i (by omega), none_]
    rfl
  · exact (congrArg₂ le16 (at_ 10 (by decide)) (at_ 11 (by decide))).trans (le16_byteOf _)
  · exact (congrArg₂ le16 (at_ 12 (by decide)) (at_ 13 (by decide))).trans (le16_byteOf _)

/-- Settles O36: the issue launches the filled record, whose bytes are read off `fillRecord` and the owned bytes. -/
theorem aRecordIssueFillsThePartOwnedBytes : Obligations.ARecordIssueFillsThePartOwnedBytes := by
  refine ⟨fun s x r h hx => ?_, ⟨fillRecord_speed, fillRecord_feedback⟩, fun sh w a only => ?_⟩
  · obtain ⟨speed, feedback⟩ := exec_record_issue s x h hx r
    exact ⟨fun hk => speed hk, fun hk => feedback hk⟩
  · obtain ⟨-, bogie, axle⟩ := located sh only
    exact ⟨axle, fun b hb => (bogie b hb).2⟩

/-! ### Failures of the D-port (R136, R137) -/

/-- The event that fails the flight named fails it as `failFlight` says. -/
theorem exec_fails_flight {s : State} {c : Instr} {f : Flight} (h : FailsFlight s c)
    (hf : s.emission.inFlight = some f) : exec c s = done (failFlight f s) := by
  obtain ⟨g, hg, he⟩ := exec_fails h
  cases hg.symm.trans hf
  exact he

/-- The first failure of the head entry's burst marks its retry and begins the burst again (R137). -/
theorem failFlight_head_first {s : State} {a : Address} {r : Record} {k : Fin 5} {t0 : Word} {x : Entry}
    {rest : List Entry} (hq : s.emission.queue = x :: rest) (hx : x.retries = 0) :
    failFlight (.burst .head a r k t0) s =
      { s with
        emission :=
          { s.emission with
            queue := { x with retries := 1 } :: rest
            inFlight := some (.burst .head a r 0 s.timeBase) } } := by
  simp only [failFlight, hq, List.head?_cons, hx, if_pos, restartBurst, markRetry, State.withEmission]

/-- A pass or page access that fails is answered ERR, and its fixed values are discarded (R138, R161). -/
theorem failFlight_access {s : State} {t0 : Word} {x : Entry} {rest : List Entry}
    (hq : s.emission.queue = x :: rest) :
    failFlight (.access t0) s =
      { s with
        emission := ended rest s.emission
        overlay := { s.overlay with fixed := none }
        bus := answered x.tag .err none } := by
  simp only [failFlight, hq, List.head?_cons, finishAccess, popHead, List.tail_cons]
  rfl

/-- An answer to an access that the timeout has failed finds none: a restarted burst begins at the time of the
timeout, which is not when the failed access began (R136). -/
theorem failFlight_not_started {s : State} {f : Flight} (h : 64 ≤ interval s.timeBase f.start) (g : Flight)
    (hg : (failFlight f s).emission.inFlight = some g) : g.start ≠ f.start := by
  rw [failFlight_restarts f g s hg]
  intro e
  rw [← e, interval, BitVec.sub_self] at h
  exact absurd h (by decide)

/-- Settles O45, by the three ways a flight fails and the answers that name another flight. -/
theorem aFirstFailureRestartsOrAnswersErr : Obligations.AFirstFailureRestartsOrAnswersErr := by
  refine ⟨fun s c a r k t0 fails => ⟨fun b hf => ?_, fun x rest hf hq hx => ?_⟩,
    fun s c t0 x rest fails hf hq => ?_, fun s c d w hc hf => exec_late hc hf, fun s f hf due => ?_⟩
  · exact exec_fails_flight fails hf
  · exact (exec_fails_flight fails hf).trans (done_of_eq (failFlight_head_first hq hx))
  · exact (exec_fails_flight fails hf).trans (done_of_eq (failFlight_access hq))
  · refine ⟨_, exec_fails_flight ⟨f, hf, .inr (.inr ⟨rfl, due⟩)⟩ hf, fun c d hc => ?_⟩
    have late : exec c (settle (failFlight f s)) = done (settle (failFlight f s)) :=
      exec_late hc (failFlight_not_started due)
    exact late.trans (congrArg Host.Outcome.next (settle_settle _))

end Sys2Proof.Machine
end

section
/-! PROOFS. 01_access_handling_and_record_windows.md: the final failure of a burst (R138, R152). -/

namespace Sys2Proof.Machine

/-- The state in which a lost burst takes the part to FALLBACK: the notice raised, the head entry gone and its master
answered (R138). -/
def faultRaised (a : Address) (queue : List Entry) (bus : Bus) (s : State) : State :=
  { s with
    notices := noted .memoryFault (s.shadow.windowNumber a) s.timeBase s.notices
    emission := { s.emission with queue := queue }
    bus := bus }

theorem rewriteLost_eq (a : Address) (s : State) :
    rewriteLost a s = freePort (memoryLost (faultRaised a s.emission.queue s.bus s)) := rfl

theorem answerHeadBurst_raised {a : Address} {x : Entry} {queue : List Entry} {s : State}
    (hq : s.emission.queue = x :: queue) :
    answerHeadBurst .err x (raise .memoryFault (s.shadow.windowNumber a) s) =
      faultRaised a queue (if x.isDemand = true then answered x.tag .err none else s.bus) s := by
  have popped : s.emission.queue.tail = queue := by rw [hq, List.tail_cons]
  subst popped
  unfold answerHeadBurst Entry.isDemand
  cases x.kind <;> rfl

/-- Every final failure frees the port after the same effects; only a demand burst's can enter FALLBACK (R138). -/
theorem failFlight_final {s : State} {of : BurstOf} {a : Address} {r : Record} {k : Fin 5} {t0 : Word}
    {isDemand : Bool} {queue : List Entry} {bus : Bus}
    (final : (∃ b, of = .rewrite b 1 ∧ isDemand = true ∧ queue = s.emission.queue ∧ bus = s.bus) ∨
      (of = .head ∧ ∃ x, s.emission.queue = x :: queue ∧ x.retries = 1 ∧ isDemand = x.isDemand ∧
        bus = if x.isDemand = true then answered x.tag .err none else s.bus)) :
    failFlight (.burst of a r k t0) s =
      freePort (if isDemand then memoryLost (faultRaised a queue bus s) else faultRaised a queue bus s) := by
  rcases final with ⟨b, rfl, rfl, rfl, rfl⟩ | ⟨rfl, x, hq, hx, rfl, rfl⟩
  · exact rewriteLost_eq a s
  · have lost : failFlight (.burst .head a r k t0) s = headBurstLost a x s := by
      simp [failFlight, hq, hx]
    rw [lost, headBurstLost]
    simp only [answerHeadBurst_raised hq]

/-- Every cut line is asserted in FALLBACK (R76). -/
theorem cut_of_fallback {s : State} (h : s.control.mode = .fallback) :
    (lineLevels s).cut = Vector.replicate 4 true := by
  apply Vector.ext
  intro i hi
  simp [lineLevels, cutLevel, h]

/-- What FALLBACK entry at a lost demand record leaves, once the port is free (R110, R138, R152). -/
theorem memoryLost_entry {u : State} (hm : u.control.mode = .run) :
    ∃ v r d, memoryLost u =
        { u with
          control := { u.control with mode := .fallback, fallbackCause := .memoryFault }
          sand := { u.sand with sanders := v }
          emission := { u.emission with rewriteSet := r, decision := d } } ∧
      (∀ b, u.shadow.counts b = true → r[b] = true) ∧
      { u.sand with sanders := v } = (sandersEvent u.allStanding none
        { u with control := { u.control with mode := .fallback, fallbackCause := .memoryFault } }).sand := by
  have entry : memoryLost u = fallbackEntry .memoryFault u := if_pos hm
  have requests := fallbackEntry_requests .memoryFault u
  have sand := fallbackEntry_sand .memoryFault u
  obtain ⟨v, r, d, change, -⟩ := fallbackEntry_change .memoryFault u
  rw [entry]
  generalize fallbackEntry .memoryFault u = t at *
  subst change
  exact ⟨v, r, d, rfl, requests, sand⟩

theorem memoryLost_stays {u : State} (hm : u.control.mode ≠ .run) : memoryLost u = u := if_neg hm

/-- The sanders see neither the notice nor the answer. -/
theorem faultRaised_event (a : Address) (queue : List Entry) (bus : Bus) (s : State) (c : Control) :
    (sandersEvent (faultRaised a queue bus s).allStanding none { faultRaised a queue bus s with control := c }).sand =
      (sandersEvent s.allStanding none { s with control := c }).sand := by
  have see : SandersSee { s with control := c } { faultRaised a queue bus s with control := c } :=
    ⟨rfl, rfl, rfl, rfl, rfl, fun _ => Iff.rfl, rfl, rfl⟩
  exact see.unit rfl s.allStanding none

/-- Settles O46: a final failure is the notice and the answer, then FALLBACK entry for a demand burst in RUN, then the
port freed. -/
theorem aFinalFailureRaisesMemoryFault : Obligations.AFinalFailureRaisesMemoryFault := by
  refine ⟨fun s c of a r k t0 isDemand queue bus fails hf final => ?_, fun sh w a only => (located sh only).1⟩
  refine ⟨_, exec_fails_flight fails hf, ?_⟩
  rw [failFlight_final final]
  by_cases lost : isDemand = true ∧ s.control.mode = .run
  · obtain ⟨rfl, hm⟩ := lost
    obtain ⟨v, rs, d, entry, requests, sand⟩ := memoryLost_entry (u := faultRaised a queue bus s) hm
    rw [if_pos rfl, entry]
    refine ⟨rfl, rfl, rfl, rfl, rfl, rfl, fun _ _ => ⟨rfl, requests, ?_, cut_of_fallback rfl⟩, ?_,
      ⟨rfl, rfl, rfl, rfl, rfl⟩, rfl, rfl, rfl, rfl, rfl, rfl⟩
    · exact sand.trans (faultRaised_event _ _ _ _ _)
    · rintro (h | h)
      · exact absurd h (by decide)
      · exact absurd hm h
  · have stays : (if isDemand then memoryLost (faultRaised a queue bus s) else faultRaised a queue bus s) =
        faultRaised a queue bus s := by
      cases isDemand with
      | false => rfl
      | true => exact memoryLost_stays fun hm => lost ⟨rfl, hm⟩
    rw [stays]
    exact ⟨rfl, rfl, rfl, rfl, rfl, rfl, fun h hm => absurd ⟨h, hm⟩ lost, fun _ => ⟨rfl, rfl, rfl⟩,
      ⟨rfl, rfl, rfl, rfl, rfl⟩, rfl, rfl, rfl, rfl, rfl, rfl⟩

end Sys2Proof.Machine
end

section
/-! PROOFS. 01_access_handling_and_record_windows.md: the RUN request that validates (R148, R150, R168). -/

namespace Sys2Proof.Machine

theorem requestRun_valid {s : State} (hm : s.control.mode = .setup) (hv : validate s.shadow s.pageBase = 0) :
    requestRun s = runEntry s := by
  simp only [requestRun, hm, hv, if_true]

/-- What a control record write at its first byte does before its mode request: the clears and the
acknowledgements it carries (R62, R156, R168). -/
def modeWriteCleared (a : Address) (z : AccessSize) (d : Word) (s : State) : State :=
  { pageWriteTaken s a z d with
    axles := unpersisted (carriedMask 0x20 z d) s.axles
    notices := acked (carriedAcknowledge 0x20 z d) s.notices }

/-- A write of mode code 1 to the control record takes its entry, clears, and requests RUN (R165, R168). -/
theorem presentWrite_requestRun {s : State} {a : Address} {z : AccessSize} {d : Word} (h : OnPage s a z 0x20)
    (hd : d.toNat % 256 = 1) (room : HasRoom s) :
    presentWrite 0 a z d s = requestRun (modeWriteCleared a z d s) := by
  have code : byteOf d 0 = 1 := BitVec.eq_of_toNat_eq ((byteOf_zero_toNat d).trans hd)
  have accept : decidePageWrite s 0 0x20 z d = .accept := by
    simp [decidePageWrite, controlWriteRefused, code]
  have size : z.bytes ≤ 4 ∧ 0 < z.bytes := by cases z <;> decide
  have covered : coveredByte 0x20 z d 0 = some (byteOf d 0) := coveredByte_some d (by omega)
  calc presentWrite 0 a z d s
      = pageActions 0x20 z d (pageWriteTaken s a z d) := by
        rw [presentWrite_page 0 d h, pageWriteTreatment_accept accept room]
    _ = controlActions 0x20 z d (pageWriteTaken s a z d) := by simp [pageActions]
    _ = carriedModeRequest 0x20 z d (modeWriteCleared a z d s) := controlActions_low d _ (by omega)
    _ = requestRun (modeWriteCleared a z d s) := by simp only [carriedModeRequest, covered, code, if_true]

theorem atRunEntry_eq (sh : Shadow) (now : Word) (b : BogieNo) :
    Supervision.atRunEntry sh now b =
      { standing := Request.reset, late := false, timer := if b.val < sh.bogieCount then some now else none } := by
  unfold Supervision.atRunEntry
  by_cases counted : b.val < sh.bogieCount
  · have counts : sh.counts b = true := decide_eq_true counted
    rw [if_pos counted, if_pos counts]
    rfl
  · have counts : ¬ sh.counts b = true := fun h => counted (of_decide_eq_true h)
    rw [if_neg counted, if_neg counts]
    rfl

/-- Settles O21: the mode request meets a shadow that validates, and RUN entry resets every block. -/
theorem aRunRequestThatValidatesEntersRun : Obligations.ARunRequestThatValidatesEntersRun := by
  intro s a z d h hd hm hv room
  have entry : exec (.modeRequestRun 0 a z d) s = done (runEntry (modeWriteCleared a z d s)) := by
    rw [exec_write s (c := .modeRequestRun 0 a z d) rfl, presentWrite_requestRun h hd room]
    exact congrArg done (requestRun_valid hm hv)
  refine ⟨_, entry, rfl, rfl, rfl, rfl, rfl, rfl, fun b => ?_, rfl, rfl, rfl, fun b => ?_, rfl, rfl, rfl, rfl, rfl,
    rfl, rfl, rfl, rfl⟩
  · exact Vector.getElem_map ..
  · exact (Vector.getElem_ofFn ..).trans (atRunEntry_eq ..)

end Sys2Proof.Machine
end

section
/-! PROOFS. 01_access_handling_and_record_windows.md: the issue of a demand burst, stage by stage (R131). -/

namespace Sys2Proof.Machine

/-! ### Stages 1 to 3: the state that composes (R100, R110, R111, R128, R129) -/

/-- What the state that composes an issue's record is, `w` being the state before its sanders react. -/
structure Composing (s : State) (b : BogieNo) (q : Request) (rewrite : Bool) (w u : State) : Prop where
  opened :
    w =
      { s with
        hold := { s.hold with direction := q.direction }
        sand := w.sand
        emission :=
          { s.emission with
            rewriteSet := s.emission.rewriteSet.set b false
            streak := if rewrite then s.emission.streak + 1 else 0 } }
  event : u = sandersEvent (s.allStanding.set b q) (some b) w
  shape : ∃ v r d,
    u =
      { s with
        hold := { s.hold with direction := q.direction }
        sand := { w.sand with sanders := v }
        emission :=
          { s.emission with
            rewriteSet := r
            streak := if rewrite then s.emission.streak + 1 else 0
            decision := d } }
  left : u.emission.rewriteSet[b] = false
  keeps : ∀ e : BogieNo, e ≠ b → s.emission.rewriteSet[e] = true → u.emission.rewriteSet[e] = true
  reacted : ∃ x : Sander, ∃ stands : Bool,
    (s.hold.latch ≠ .clear → s.shadow.counts b = true → stands = true) ∧
      u.sand.sanders[b] = (x.react stands (s.shadow.counts b) s.hold.latch s.shadow.sandDwell s.timeBase).1

/-- A bogie whose burst is issuing is asked for no rewrite by its sander, which knows the latch (R110, R119). -/
theorem sandersEvent_issuing (standing : Vector Request 4) (b : BogieNo) {w : State} (active : w.active = true) :
    (sandersEvent standing (some b) w).emission.rewriteSet[b] = w.emission.rewriteSet[b] ∧
    ∃ x : Sander, ∃ stands : Bool,
      (w.hold.latch ≠ .clear → w.shadow.counts b = true → stands = true) ∧
        (sandersEvent standing (some b) w).sand.sanders[b] =
          (x.react stands (w.shadow.counts b) w.hold.latch w.shadow.sandDwell w.timeBase).1 := by
  obtain ⟨record, request⟩ := sandersEvent_bogie standing (some b) b w active
  refine ⟨request.trans (by simp), w.sand.sanders[b], causeStands w standing b, fun latch counts => ?_, record⟩
  simp [causeStands, latch, counts]

theorem composing_of_active (b : BogieNo) (q : Request) (rewrite : Bool) {s : State} (active : s.active = true) :
    ∃ w, Composing s b q rewrite w (composingState b q rewrite s) ∧
      (HillStartOpens s b q →
        w.sand = { s.sand with windowOpen := true, windowTimer := some s.timeBase, usedSinceClosing := true }) ∧
      (¬ HillStartOpens s b q → w.sand = s.sand) := by
  obtain ⟨w, opened, opens, stays, event⟩ := composingState_eq b q rewrite s active
  have wActive : w.active = true := by rw [opened]; exact active
  have change := sandersEvent_change (s.allStanding.set b q) (some b) w
  obtain ⟨request, reacted⟩ := sandersEvent_issuing (s.allStanding.set b q) b wActive
  rw [← event] at change request reacted
  generalize composingState b q rewrite s = u at *
  refine ⟨w, ⟨opened, event, ?_, ?_, fun e ne member => change.keeps e ?_, ?_⟩, opens, stays⟩
  · obtain ⟨v, r, d, shape, -⟩ := change
    refine ⟨v, r, d, shape.trans ?_⟩
    generalize w.sand = sd at opened ⊢
    subst opened
    rfl
  · rw [request]
    generalize w.sand = sd at opened
    subst opened
    exact set_same _ _ _
  · generalize w.sand = sd at opened
    subst opened
    exact (set_other _ _ _ _ ne.symm).trans member
  · generalize w.sand = sd at opened
    subst opened
    exact reacted

/-! ### Stages 5 and 6: motors, shares, the shortfall and the standing request (R61, R90, R92, R145) -/

/-- The state after an issue's accounting, before its stage 7. -/
def accounted (b : BogieNo) (q : Request) (k : Commands) (u : State) : State :=
  makeStanding b q (grantShare b k (noteMotors b q k (noteShortfall b k u)))

theorem accounted_eq (b : BogieNo) (q : Request) (k : Commands) (u : State) :
    accounted b q k u =
      { u with
        axles := (noteMotors b q k u).axles
        feedback := u.feedback.set b { u.feedback[b] with granted := k.granted }
        supervision := u.supervision.set b { u.supervision[b] with standing := q }
        notices := if k.shortfall = true then noted .brakeShortfall b.val u.timeBase u.notices else u.notices } := by
  unfold accounted noteShortfall
  cases k.shortfall <;> rfl

theorem accounted_axles (b : BogieNo) (q : Request) (k : Commands) (u : State) :
    (accounted b q k u).axles = (noteMotors b q k u).axles := by
  rw [accounted_eq]

theorem settleIssue_active (b : BogieNo) (q : Request) (k : Commands) (before : Bool) {u : State}
    (active : u.active = true) : settleIssue b q k before u = holdStage b q before (accounted b q k u) := if_pos active

/-- An axle's record after the accounting of its slot: the effort, and GRIP where its ramp is complete (R57, R61,
R72). -/
theorem accounted_slot {b : BogieNo} {slot : Slot} {n : AxleNo} (q : Request) (k : Commands) {u : State}
    (h : u.shadow.axleAt b slot = some n) :
    (accounted b q k u).axles[n] =
      { u.axles[n] with
        lastEmitted := if slot = .a then k.motorA else k.motorB
        state :=
          if u.control.mode = .run ∧ u.hold.latch = .clear ∧ u.supervision[b].late = false ∧ q.mode = .drive ∧
              u.axles[n].state = .recover ∧ q.isolates slot = false ∧ q.traction slot ≤ ceiling u n then
            .grip
          else u.axles[n].state } := by
  rw [accounted_axles, noteMotors_slot b q k u slot n h]
  by_cases complete : rampComplete u b q slot n = true
  · rw [if_pos ((rampComplete_iff u b q slot n).1 complete), Axle.noteEmission, if_pos complete]
  · rw [if_neg fun c => complete ((rampComplete_iff u b q slot n).2 c), Axle.noteEmission, if_neg complete]

theorem accounted_other {b : BogieNo} {n : AxleNo} (q : Request) (k : Commands) {u : State}
    (ha : u.shadow.axleAt b .a ≠ some n) (hb : u.shadow.axleAt b .b ≠ some n) :
    (accounted b q k u).axles[n] = u.axles[n] := by
  rw [accounted_axles, noteMotors_other b q k u n ha hb]

theorem accounted_standing (b : BogieNo) (q : Request) (k : Commands) (u : State) :
    (accounted b q k u).standing b = q := by
  rw [accounted_eq]
  exact congrArg Supervision.standing (set_same _ _ _)

/-- A latch's confirmation reads the hold unit and the bogie count alone (R104). -/
theorem latchConfirmed_congr {s t : State} (b : BogieNo) (q : Request) (shadow : t.shadow = s.shadow)
    (latch : t.hold.latch = s.hold.latch) (settled : t.hold.settled = s.hold.settled)
    (held : t.hold.held = s.hold.held) : LatchConfirmed t b q ↔ LatchConfirmed s b q := by
  unfold LatchConfirmed
  rw [shadow, latch, settled, held]

/-! ### Stages 7 and 8 (R99, R104, R134) -/

/-- An event of the sanders sees neither the launch nor the lines. -/
theorem launched_event (f : Flight) (h : State) (sd : Sand) (em : Emission) (standing : Vector Request 4) :
    let p := sandersEvent standing none { settle (launch f h) with sand := sd, emission := em }
    let p' := sandersEvent standing none { h with sand := sd, emission := em }
    p.sand.sanders = p'.sand.sanders ∧ p.emission.rewriteSet = p'.emission.rewriteSet := by
  have see : SandersSee { h with sand := sd, emission := em }
      { settle (launch f h) with sand := sd, emission := em } :=
    ⟨rfl, rfl, rfl, rfl, rfl, fun _ => Iff.rfl, rfl, rfl⟩
  exact ⟨congrArg Sand.sanders (see.unit rfl standing none), see.requests standing none rfl⟩

/-- Stage 7 asks for no rewrite of the issuing bogie: its sander reacted to the latch at stage 3. -/
theorem holdStage_left {s u : State} {w : State} {b : BogieNo} {q : Request} {rewrite before : Bool} (k : Commands)
    (c : Composing s b q rewrite w u) (active : u.active = true) :
    (holdStage b q before (accounted b q k u)).emission.rewriteSet[b] = false := by
  obtain ⟨x, stands, caused, reacted⟩ := c.reacted
  obtain ⟨latch, shadow, timeBase⟩ : u.hold.latch = s.hold.latch ∧ u.shadow = s.shadow ∧ u.timeBase = s.timeBase := by
    obtain ⟨v, r, d, shape⟩ := c.shape
    rw [shape]
    exact ⟨rfl, rfl, rfl⟩
  have left := c.left
  have request := holdStage_request b q before (accounted b q k u) (by rw [accounted_eq]; exact active)
  rw [accounted_eq] at request ⊢
  refine (request fun set stands' uncounted => ?_).trans left
  have set' : s.hold.latch ≠ .clear := fun clear => set (latch.trans clear)
  have counts : u.shadow.counts b = s.shadow.counts b := congrArg (Shadow.counts · b) shadow
  refine (congrArg (fun y : Sander => (y.react stands' (u.shadow.counts b) .clear u.shadow.sandDwell
    u.timeBase).2) reacted).trans ?_
  rw [counts]
  exact react_after_latch x stands (s.shadow.counts b) s.hold.latch .clear _ _ _ _ stands' set'
    (caused set') fun none_ => uncounted (counts.trans none_)

/-- The release wait after stage 7: a HOLD burst of a bogie that counts has stopped it, and otherwise what the gate's
evaluation leaves of it stands (R99). -/
theorem holdStage_releaseWait {s m : State} {b : BogieNo} {q : Request} (active : s.active = true)
    (mActive : m.active = true) (shadow : m.shadow = s.shadow) (timeBase : m.timeBase = s.timeBase)
    (wait : m.hold.releaseWait = s.hold.releaseWait) (own : m.standing b = q) (counts : s.shadow.counts b = true) :
    let h := holdStage b q (releaseWaitHolds s) m
    h.hold.releaseWait =
      if h.hold.gate = .closed ∧ ∀ e, s.shadow.counts e = true → (h.standing e).mode = .drive then
        if s.hold.gate = .closed ∧ ∀ e, s.shadow.counts e = true → (s.standing e).mode = .drive then
          s.hold.releaseWait
        else some s.timeBase
      else none := by
  intro h
  obtain ⟨-, -, -, after, -, -, -, -, -, -, -, supervision, -⟩ :=
    holdStage_facts b q (releaseWaitHolds s) m mActive
  have before := releaseWaitHolds_iff s active
  change h.hold.releaseWait = _ at after
  have standing (e : BogieNo) : h.standing e = m.standing e := by
    unfold State.standing
    exact congrArg (fun v : Vector Supervision 4 => v[e].standing) supervision
  by_cases holds : h.hold.gate = .closed ∧ ∀ e, s.shadow.counts e = true → (h.standing e).mode = .drive
  · have held : h.hold.gate = .closed ∧ ∀ e, m.shadow.counts e = true → (m.standing e).mode = .drive :=
      ⟨holds.1, fun e he => standing e ▸ holds.2 e (shadow ▸ he)⟩
    have drives : q.mode ≠ .hold := by
      have := holds.2 b counts
      rw [standing, own] at this
      rw [this]
      decide
    rw [if_pos holds, after, if_pos held, wait, timeBase]
    by_cases waits : releaseWaitHolds s = true
    · rw [if_pos waits, if_pos (.inl drives), if_pos (before.1 waits)]
    · rw [if_neg waits, if_neg fun both => waits (before.2 both)]
  · have fails : ¬ (h.hold.gate = .closed ∧ ∀ e, m.shadow.counts e = true → (m.standing e).mode = .drive) :=
      fun held => holds ⟨held.1, fun e he => (standing e).symm ▸ held.2 e (shadow.symm ▸ he)⟩
    rw [if_neg holds, after, if_neg fails]

/-! ### The whole issue -/

section
variable {s w u : State} {b : BogieNo} {q : Request} {rewrite : Bool} (c : Composing s b q rewrite w u)
include c

theorem Composing.sameHold : u.hold = { s.hold with direction := q.direction } := by
  obtain ⟨v, r, d, shape⟩ := c.shape
  rw [shape]

theorem Composing.sameSand : u.sand.windowOpen = w.sand.windowOpen ∧ u.sand.windowTimer = w.sand.windowTimer ∧
    u.sand.usedSinceClosing = w.sand.usedSinceClosing := by
  obtain ⟨v, r, d, shape⟩ := c.shape
  rw [shape]
  exact ⟨rfl, rfl, rfl⟩

theorem Composing.sameRecords : u.axles = s.axles ∧ u.feedback = s.feedback ∧ u.supervision = s.supervision ∧
    u.notices = s.notices ∧ u.intake = s.intake ∧ u.shadow = s.shadow ∧ u.timeBase = s.timeBase ∧
    u.control = s.control := by
  obtain ⟨v, r, d, shape⟩ := c.shape
  rw [shape]
  exact ⟨rfl, rfl, rfl, rfl, rfl, rfl, rfl, rfl⟩

/-- What an issue leaves of the blocks that no stage writes, and of the queue, the streak and the rewrite set. -/
theorem Composing.issued_frame {h : State} (change : MiddleChange u h) :
    SameConfiguration s h ∧ h.control = s.control ∧ h.bus = s.bus ∧ h.overlay = s.overlay ∧
      h.emission.queue = s.emission.queue ∧
      h.emission.streak = (if rewrite then s.emission.streak + 1 else 0) ∧
      ∀ e : BogieNo, e ≠ b → s.emission.rewriteSet[e] = true → h.emission.rewriteSet[e] = true := by
  have keeps : ∀ e : BogieNo, e ≠ b → s.emission.rewriteSet[e] = true → h.emission.rewriteSet[e] = true :=
    fun e ne member => change.keeps e (c.keeps e ne member)
  obtain ⟨_, _, _, _, _, _, _, _, _, rfl, -⟩ := change
  obtain ⟨v, r, d, shape⟩ := c.shape
  subst shape
  exact ⟨⟨rfl, rfl, rfl, rfl, rfl⟩, rfl, rfl, rfl, rfl, rfl, keeps⟩

/-- The record of an axle of the issuing bogie, in the terms of the state before the issue (R57, R61, R72). -/
theorem Composing.issued_slot (k : Commands) {slot : Slot} {n : AxleNo} (hn : s.shadow.axleAt b slot = some n) :
    (accounted b q k u).axles[n] =
      { s.axles[n] with
        lastEmitted := if slot = .a then k.motorA else k.motorB
        state :=
          if s.control.mode = .run ∧ s.hold.latch = .clear ∧ s.supervision[b].late = false ∧ q.mode = .drive ∧
              s.axles[n].state = .recover ∧ q.isolates slot = false ∧ q.traction slot ≤ ceiling s n then
            .grip
          else s.axles[n].state } := by
  obtain ⟨axles, -, supervision, -, -, shadow, timeBase, control⟩ := c.sameRecords
  rw [accounted_slot q k (shadow ▸ hn), ceiling_congr n axles shadow timeBase, axles, supervision, control,
    c.sameHold]

end

end Sys2Proof.Machine
end

section
/-! PROOFS. 01_access_handling_and_record_windows.md: the issue of a demand burst as a whole (R131). -/

namespace Sys2Proof.Machine

/-! ### The accounting in the terms of the state before the issue -/

/-- What the state before stage 7 is, `u` being the state that composed the commands `k`. -/
structure Accounting (s : State) (b : BogieNo) (q : Request) (k : Commands) (u m : State) : Prop where
  blocks :
    m = { u with axles := m.axles, feedback := m.feedback, supervision := m.supervision, notices := m.notices }
  active : m.active = true
  hold : m.hold = { s.hold with direction := q.direction }
  shadow : m.shadow = s.shadow
  timeBase : m.timeBase = s.timeBase
  intake : m.intake = s.intake
  feedback : m.feedback = s.feedback.set b { s.feedback[b] with granted := k.granted }
  supervision : m.supervision = s.supervision.set b { s.supervision[b] with standing := q }
  notices :
    m.notices = if k.shortfall = true then noted .brakeShortfall b.val s.timeBase s.notices else s.notices
  own : m.standing b = q
  slots : ∀ (slot : Slot) (n : AxleNo), s.shadow.axleAt b slot = some n →
    m.axles[n] =
      { s.axles[n] with
        lastEmitted := if slot = .a then k.motorA else k.motorB
        state :=
          if s.control.mode = .run ∧ s.hold.latch = .clear ∧ s.supervision[b].late = false ∧ q.mode = .drive ∧
              s.axles[n].state = .recover ∧ q.isolates slot = false ∧ q.traction slot ≤ ceiling s n then
            .grip
          else s.axles[n].state }
  others : ∀ n : AxleNo, s.shadow.axleAt b .a ≠ some n → s.shadow.axleAt b .b ≠ some n → m.axles[n] = s.axles[n]

theorem accounted_blocks (b : BogieNo) (q : Request) (k : Commands) (u : State) :
    let m := accounted b q k u
    m = { u with axles := m.axles, feedback := m.feedback, supervision := m.supervision, notices := m.notices } ∧
      m.feedback = u.feedback.set b { u.feedback[b] with granted := k.granted } ∧
      m.supervision = u.supervision.set b { u.supervision[b] with standing := q } ∧
      m.notices = (if k.shortfall = true then noted .brakeShortfall b.val u.timeBase u.notices else u.notices) := by
  intro m
  have eq : m = _ := accounted_eq b q k u
  generalize m = m at eq
  subst eq
  exact ⟨rfl, rfl, rfl, rfl⟩

theorem Composing.accounting {s w u : State} {b : BogieNo} {q : Request} {rewrite : Bool}
    (c : Composing s b q rewrite w u) (active : s.active = true) (k : Commands) :
    Accounting s b q k u (accounted b q k u) := by
  obtain ⟨axles, feedback, supervision, notices, intake, shadow, timeBase, control⟩ := c.sameRecords
  have hold := c.sameHold
  have slots (slot : Slot) (n : AxleNo) (hn : s.shadow.axleAt b slot = some n) := c.issued_slot k hn
  have others (n : AxleNo) (ha : s.shadow.axleAt b .a ≠ some n) (hb : s.shadow.axleAt b .b ≠ some n) :=
    (accounted_other q k (u := u) (shadow.symm ▸ ha) (shadow.symm ▸ hb)).trans
      (congrArg (fun v : Vector Axle 8 => v[n]) axles)
  have own := accounted_standing b q k u
  have uActive : u.active = true := by rw [State.active, control]; exact active
  obtain ⟨blocks, granted, requested, noticed⟩ := accounted_blocks b q k u
  generalize accounted b q k u = m at *
  obtain ⟨mActive, mHold, mShadow, mTime, mIntake⟩ : m.active = u.active ∧ m.hold = u.hold ∧
      m.shadow = u.shadow ∧ m.timeBase = u.timeBase ∧ m.intake = u.intake := by
    rw [blocks]
    exact ⟨rfl, rfl, rfl, rfl, rfl⟩
  exact ⟨blocks, mActive.trans uActive, mHold.trans hold, mShadow.trans shadow, mTime.trans timeBase,
    mIntake.trans intake, by rw [granted, feedback], by rw [requested, supervision],
    by rw [noticed, notices, timeBase], own, slots, others⟩

/-! ### What stage 7 leaves of the accounting, and what it makes of the hold unit -/

section
variable {s u m : State} {b : BogieNo} {q : Request} {k : Commands} (g : Accounting s b q k u m)
include g

theorem Accounting.middle : MiddleChange u m := by
  refine .of (g.blocks.trans ?_)
  rw [g.blocks]

theorem Accounting.kept : m.sand = u.sand ∧ m.emission = u.emission := by
  rw [g.blocks]
  exact ⟨rfl, rfl⟩

/-- The latch, in the state before the issue, is confirmed exactly when stage 7 confirms it (R104). -/
theorem Accounting.confirmed_iff : LatchConfirmed m b q ↔ LatchConfirmed s b q :=
  latchConfirmed_congr b q g.shadow (by rw [g.hold]) (by rw [g.hold]) (by rw [g.hold])

/-- Stage 7 leaves the records that the accounting wrote (R61, R90, R92, R145). -/
theorem Accounting.issued_records (before : Bool) :
    let h := holdStage b q before m
    h.supervision = s.supervision.set b { s.supervision[b] with standing := q } ∧
      h.feedback = s.feedback.set b { s.feedback[b] with granted := k.granted } ∧
      h.notices = (if k.shortfall = true then noted .brakeShortfall b.val s.timeBase s.notices else s.notices) ∧
      h.intake = s.intake ∧
      (∀ (slot : Slot) (n : AxleNo), s.shadow.axleAt b slot = some n →
        h.axles[n].lastEmitted = (if slot = .a then k.motorA else k.motorB) ∧
        h.axles[n] =
          { s.axles[n] with
            lastEmitted := h.axles[n].lastEmitted
            state :=
              if s.control.mode = .run ∧ s.hold.latch = .clear ∧ s.supervision[b].late = false ∧
                  q.mode = .drive ∧ s.axles[n].state = .recover ∧ q.isolates slot = false ∧
                  q.traction slot ≤ ceiling s n then
                .grip
              else s.axles[n].state }) ∧
      ∀ n : AxleNo, s.shadow.axleAt b .a ≠ some n → s.shadow.axleAt b .b ≠ some n → h.axles[n] = s.axles[n] := by
  obtain ⟨-, -, -, -, -, -, -, -, -, axles, feedback, supervision, notices, intake⟩ :=
    holdStage_facts b q before m g.active
  generalize holdStage b q before m = h at *
  have own (n : AxleNo) : h.axles[n] = m.axles[n] := congrArg (fun v : Vector Axle 8 => v[n]) axles
  refine ⟨supervision.trans g.supervision, feedback.trans g.feedback, notices.trans g.notices,
    intake.trans g.intake, fun slot n hn => ?_, fun n ha hb => (own n).trans (g.others n ha hb)⟩
  have written := (own n).trans (g.slots slot n hn)
  have effort : h.axles[n].lastEmitted = (if slot = .a then k.motorA else k.motorB) :=
    congrArg Axle.lastEmitted written
  rw [← effort] at written
  exact ⟨effort, written⟩

/-- The direction, the gate and the release wait after stage 7 (R95 to R100). -/
theorem Accounting.issued_gate (active : s.active = true) :
    let h := holdStage b q (releaseWaitHolds s) m
    h.hold.direction = q.direction ∧
      (q.mode = .hold → h.hold.gate = .closed ∧ h.hold.blockedReported = false) ∧
      (q.mode ≠ .hold → h.hold.blockedReported = s.hold.blockedReported ∧
        h.hold.gate = (evaluateGate
          { u with
            axles := h.axles
            feedback := h.feedback
            supervision := h.supervision
            notices := h.notices }).hold.gate) ∧
      (s.shadow.counts b = true → h.hold.releaseWait =
        if h.hold.gate = .closed ∧ ∀ e, s.shadow.counts e = true → (h.standing e).mode = .drive then
          if s.hold.gate = .closed ∧ ∀ e, s.shadow.counts e = true → (s.standing e).mode = .drive then
            s.hold.releaseWait
          else some s.timeBase
        else none) := by
  obtain ⟨closes, evaluates, direction, -, -, -, -, -, -, axles, feedback, supervision, notices, -⟩ :=
    holdStage_facts b q (releaseWaitHolds s) m g.active
  have wait := holdStage_releaseWait active g.active g.shadow g.timeBase (by rw [g.hold]) g.own
  generalize holdStage b q (releaseWaitHolds s) m = h at *
  refine ⟨direction.trans (by rw [g.hold]), closes, fun hq => ?_, wait⟩
  obtain ⟨gate, reported⟩ := evaluates hq
  have seen : { u with
      axles := h.axles, feedback := h.feedback, supervision := h.supervision, notices := h.notices } = m := by
    rw [axles, feedback, supervision, notices]
    exact g.blocks.symm
  exact ⟨reported.trans (by rw [g.hold]), gate.trans (by rw [seen])⟩

/-- The latch and the held bogies after stage 7 (R104). -/
theorem Accounting.issued_latch (before : Bool) :
    let h := holdStage b q before m
    (LatchConfirmed s b q → h.hold.latch = .clear ∧ h.hold.held = BogieSet.none ∧ h.hold.settling = none ∧
        h.hold.settled = false) ∧
      (¬ LatchConfirmed s b q → h.hold.latch = s.hold.latch ∧ h.hold.settling = s.hold.settling ∧
        h.hold.settled = s.hold.settled ∧
        h.hold.held =
          (if q.mode = .hold ∧ s.hold.latch ≠ .clear then s.hold.held.set b true else s.hold.held)) := by
  obtain ⟨-, -, -, -, confirmed, unconfirmed, -⟩ := holdStage_facts b q before m g.active
  rw [g.confirmed_iff] at confirmed unconfirmed
  rw [g.hold] at unconfirmed
  exact ⟨confirmed, unconfirmed⟩

/-- The sander unit and the rewrite set after stage 7 (R104, R110, R111). -/
theorem Accounting.issued_sand (before : Bool) :
    let h := holdStage b q before m
    (¬ LatchConfirmed s b q →
        h.sand.sanders = u.sand.sanders ∧ h.emission.rewriteSet = u.emission.rewriteSet) ∧
      (LatchConfirmed s b q →
        let p := sandersEvent h.allStanding none { h with sand := u.sand, emission := u.emission }
        h.sand.sanders = p.sand.sanders ∧ h.emission.rewriteSet = p.emission.rewriteSet) ∧
      h.sand.windowOpen = u.sand.windowOpen ∧ h.sand.windowTimer = u.sand.windowTimer ∧
      h.sand.usedSinceClosing = if q.mode = .hold then false else u.sand.usedSinceClosing := by
  obtain ⟨-, -, -, -, -, -, opened, timer, used, -, -, supervision, -⟩ := holdStage_facts b q before m g.active
  obtain ⟨unconfirmed, confirmed⟩ := holdStage_sand b q before m
  generalize holdStage b q before m = h at *
  obtain ⟨sand, emission⟩ := g.kept
  have standing : m.allStanding = h.allStanding := by rw [State.allStanding, State.allStanding, supervision]
  rw [g.confirmed_iff] at unconfirmed confirmed
  rw [sand, emission, standing] at confirmed
  rw [sand] at opened timer used
  refine ⟨fun hc => ?_, confirmed, opened, timer, used⟩
  obtain ⟨sanders, same⟩ := unconfirmed hc
  exact ⟨sanders.trans (by rw [sand]), (congrArg Emission.rewriteSet same).trans (by rw [emission])⟩

end

/-- Settles O35: the stages of the issue one after another, each by what it leaves and what it writes. -/
theorem aDemandIssueComposesAndAccounts : Obligations.ADemandIssueComposesAndAccounts := by
  refine ⟨fun s cmd b q rewrite of a issue => ?_, fun sh w a b hb =>
    ⟨fun only => ((located sh only).2.1 b hb).1, demandRecordAddress_eq sh hb⟩⟩
  have active := issue.1
  obtain ⟨w, c, opens, stays⟩ := composing_of_active b q rewrite active
  have run := (exec_demandIssue issue).trans (congrArg done (issueDemand_eq b q rewrite of a s))
  generalize composingState b q rewrite s = u at c run
  obtain ⟨-, -, -, -, -, -, timeBase, control⟩ := c.sameRecords
  obtain ⟨uOpen, uTimer, uUsed⟩ := c.sameSand
  have uActive : u.active = true := by rw [State.active, control]; exact active
  obtain ⟨k, hk⟩ : ∃ k, k = compose u b q := ⟨_, rfl⟩
  rw [← hk, settleIssue_active b q k _ uActive] at run
  have left := holdStage_left (before := releaseWaitHolds s) k c uActive
  have g := c.accounting active k
  generalize accounted b q k u = m at run left g
  obtain ⟨supervision, feedback, notices, intake, slots, others⟩ := g.issued_records (releaseWaitHolds s)
  obtain ⟨direction, closes, evaluates, wait⟩ := g.issued_gate active
  obtain ⟨confirmed, unconfirmed⟩ := g.issued_latch (releaseWaitHolds s)
  obtain ⟨sameSand, latchSand, opened, timer, used⟩ := g.issued_sand (releaseWaitHolds s)
  have frame := c.issued_frame (g.middle.trans (holdStage_middle b q (releaseWaitHolds s) m))
  generalize holdStage b q (releaseWaitHolds s) m = h at *
  obtain ⟨config, sameControl, bus, overlay, queue, streak, keeps⟩ := frame
  refine ⟨_, w, u, k, run, c.opened, opens, stays, c.event, hk, ?_, rfl, queue, streak, left, keeps, ?_, direction,
    supervision, feedback, notices, slots, others, closes, evaluates, wait, confirmed, unconfirmed, sameSand,
    fun hc => ?_, opened.trans uOpen, timer.trans uTimer, used.trans (by rw [uUsed]), config, sameControl, bus,
    intake, overlay⟩
  · rw [← timeBase]
    rfl
  · rw [c.sameHold]
  · obtain ⟨sanders, requests⟩ := latchSand hc
    obtain ⟨launchedSanders, launchedRequests⟩ := launched_event (.burst of a (emittedRecord u b q k) 0 u.timeBase) h
      u.sand u.emission h.allStanding
    exact ⟨sanders.trans launchedSanders.symm, requests.trans launchedRequests.symm⟩

end Sys2Proof.Machine
end

section
/-! PROOFS. 02_wheel_speed_intake_and_the_reference_speed.md: the candidate speeds, the vehicle mode and the movement of
Vref (R35 to R39). -/

namespace Sys2Proof.Machine

/-! ### The candidate speeds (R35) -/

/-- Axle m's candidate is the speed of its latest sample, if that is GOOD and the axle is enabled, and not STALE or the
one being stored. -/
theorem candidateOf_iff (s : State) (n m : AxleNo) (v : Nat) : candidateOf s n m = some v ↔
    s.shadow.axleEnabled m = true ∧ (s.axles[m].state ≠ .stale ∨ m = n) ∧
      s.axles[m].latest = some { speed := v, quality := .good } := by
  unfold candidateOf
  cases s.axles[m].latest with
  | none => simp
  | some x =>
    obtain ⟨speed, quality⟩ := x
    simp only [Option.ite_none_right_eq_some, Bool.and_eq_true, Bool.or_eq_true, decide_eq_true_eq, Option.some.injEq,
      Sample.mk.injEq]
    tauto

theorem mem_candidateSpeeds (s : State) (n : AxleNo) (v : Nat) : v ∈ candidateSpeeds s n ↔
    ∃ m : AxleNo, s.shadow.axleEnabled m = true ∧ (s.axles[m].state ≠ .stale ∨ m = n) ∧
      s.axles[m].latest = some { speed := v, quality := .good } := by
  simp only [candidateSpeeds, List.mem_filterMap, mem_upTo8, true_and, candidateOf_iff]

/-! ### The vehicle mode (R36) -/

/-- Some bogie within the bogie count has the standing mode, as `vehicleMode` looks for it. -/
theorem anyStands_iff (s : State) (m : DemandMode) :
    (upTo4.any fun b => s.shadow.counts b && decide ((s.standing b).mode = m)) = true ↔
      ∃ b, s.shadow.counts b = true ∧ (s.standing b).mode = m := by
  simp only [any_upTo4, Bool.and_eq_true, decide_eq_true_eq]

theorem vehicleMode_brake {s : State} (h : ∃ b, s.shadow.counts b = true ∧ (s.standing b).mode = .brake) :
    vehicleMode s = .brake :=
  if_pos ((anyStands_iff s .brake).2 h)

theorem vehicleMode_unbraked {s : State} (h : ∀ b, s.shadow.counts b = true → (s.standing b).mode ≠ .brake) :
    vehicleMode s =
      if upTo4.any fun b => s.shadow.counts b && decide ((s.standing b).mode = .drive) then .drive else .coast :=
  if_neg fun k => by
    obtain ⟨b, counts, brakes⟩ := (anyStands_iff s .brake).1 k
    exact h b counts brakes

theorem vehicleMode_drive {s : State} (h : ∀ b, s.shadow.counts b = true → (s.standing b).mode ≠ .brake)
    (hd : ∃ b, s.shadow.counts b = true ∧ (s.standing b).mode = .drive) : vehicleMode s = .drive :=
  (vehicleMode_unbraked h).trans (if_pos ((anyStands_iff s .drive).2 hd))

theorem vehicleMode_coast {s : State} (h : ∀ b, s.shadow.counts b = true → (s.standing b).mode ≠ .brake)
    (hd : ∀ b, s.shadow.counts b = true → (s.standing b).mode ≠ .drive) : vehicleMode s = .coast :=
  (vehicleMode_unbraked h).trans <| if_neg fun k => by
    obtain ⟨b, counts, drives⟩ := (anyStands_iff s .drive).1 k
    exact hd b counts drives

/-- Settles O47: membership of the candidate set axle by axle, and the choice by the vehicle mode of each case. -/
theorem theCandidateSpeedFollowsTheVehicleMode : Obligations.TheCandidateSpeedFollowsTheVehicleMode := by
  refine fun s n => ⟨mem_candidateSpeeds s n, fun braked => ?_, fun unbraked driven => ?_, fun coasting => ?_⟩
  · simp only [candidateSpeed, vehicleMode_brake braked]
  · simp only [candidateSpeed, vehicleMode_drive unbraked driven]
  · have other (m : DemandMode) (hc : m ≠ .coast) (hh : m ≠ .hold) (b : BogieNo) (counts : s.shadow.counts b = true) :
        (s.standing b).mode ≠ m := by
      rcases coasting b counts with k | k
      · exact k ▸ hc.symm
      · exact k ▸ hh.symm
    simp only [candidateSpeed, vehicleMode_coast (other .brake (by decide) (by decide))
      (other .drive (by decide) (by decide))]

/-! ### The movement of Vref (R37, R38) -/

theorem toward_unset {x : Intake} (slope c : Nat) (h : x.vref = none) :
    x.toward slope c = { vref := some c, elapsed := 0 } := by
  simp only [Intake.toward, h]

/-- A set Vref reaches a candidate within the allowed step, moves by a step of at least 1, or waits for the counter; the
two subtractions in Nat give the distance. -/
theorem toward_set {x : Intake} {v : Nat} (slope c : Nat) (h : x.vref = some v) :
    x.toward slope c =
      if (c - v) + (v - c) ≤ slope * x.elapsed / 100000 then { vref := some c, elapsed := 0 }
      else if 1 ≤ slope * x.elapsed / 100000 then
        { vref := some (if v < c then v + slope * x.elapsed / 100000 else v - slope * x.elapsed / 100000)
          elapsed := 0 }
      else x := by
  have distance : max c v - min c v = (c - v) + (v - c) := by omega
  simp only [Intake.toward, h, distance]

/-- The elapsed counter counts to its last value and stops there (R38). -/
theorem intake_tick (x : Intake) : x.tick.vref = x.vref ∧ x.tick.elapsed = min (x.elapsed + 1) 16777215 := ⟨rfl, rfl⟩

/-- Settles O48: the cases of the movement, the evaluation that makes it, and the counter's microsecond. -/
theorem vrefMovesWithinTheSlope : Obligations.VrefMovesWithinTheSlope := by
  refine ⟨fun x slope c h => toward_unset slope c h, fun x slope c v h => ?_,
    fun s n => ?_, tick_intake, fun x h => ?_, fun x h => ?_, fun x => (intake_tick x).1⟩
  · rw [toward_set slope c h]
    intro allowed d
    refine ⟨fun within => if_pos within, fun beyond step up => ?_, fun beyond step down => ?_, fun beyond short => ?_⟩
    · rw [if_neg (Nat.not_le.2 beyond), if_pos step, if_pos up]
    · rw [if_neg (Nat.not_le.2 beyond), if_pos step, if_neg (Nat.lt_asymm down)]
    · have noStep : ¬ 1 ≤ slope * x.elapsed / 100000 := by
        rw [show slope * x.elapsed / 100000 = 0 from short]
        decide
      rw [if_neg (Nat.not_le.2 beyond), if_neg noStep]
  · obtain ⟨-, -, -, moved⟩ := evaluateVref_keeps n s
    exact moved
  · rw [(intake_tick x).2]
    omega
  · rw [(intake_tick x).2]
    omega

end Sys2Proof.Machine
end

section
/-! PROOFS. 02_wheel_speed_intake_and_the_reference_speed.md: the SETUP request at rest (R41, R148, R151, R168). -/

namespace Sys2Proof.Machine

/-- A write to the control record's first byte of a mode code takes its entry, clears, and makes its mode request
(R165, R168). -/
theorem presentWrite_modeRequest {s : State} {a : Address} {z : AccessSize} {d : Word} (h : OnPage s a z 0x20)
    (hd : d.toNat % 256 ≤ 2) (room : HasRoom s) :
    presentWrite 0 a z d s = carriedModeRequest 0x20 z d (modeWriteCleared a z d s) := by
  have accept : decidePageWrite s 0 0x20 z d = .accept := by
    simp [decidePageWrite, controlWriteRefused, byteOf_zero_toNat, hd]
  have size : z.bytes ≤ 4 := by cases z <;> decide
  calc presentWrite 0 a z d s
      = pageActions 0x20 z d (pageWriteTaken s a z d) := by
        rw [presentWrite_page 0 d h, pageWriteTreatment_accept accept room]
    _ = controlActions 0x20 z d (pageWriteTaken s a z d) := by simp [pageActions]
    _ = carriedModeRequest 0x20 z d (modeWriteCleared a z d s) := controlActions_low d _ (by omega)

theorem presentWrite_requestSetup {s : State} {a : Address} {z : AccessSize} {d : Word} (h : OnPage s a z 0x20)
    (hd : d.toNat % 256 = 2) (room : HasRoom s) :
    presentWrite 0 a z d s = requestSetup (modeWriteCleared a z d s) := by
  have code : byteOf d 0 = 2 := BitVec.eq_of_toNat_eq ((byteOf_zero_toNat d).trans hd)
  have size : 0 < z.bytes := by cases z <;> decide
  have covered : coveredByte 0x20 z d 0 = some (byteOf d 0) := coveredByte_some d (by omega)
  have other : ¬ (2 : Byte) = 1 := by decide
  rw [presentWrite_modeRequest h hd.le room]
  simp only [carriedModeRequest, covered, code, other, if_false, if_true]

/-- The part is at rest with every standing mode HOLD and, in RUN, Vref below the standstill speed (R148). -/
theorem atRest_iff {s : State} (active : s.active = true) : atRest s = true ↔
    (∀ b, s.shadow.counts b = true → (s.standing b).mode = .hold) ∧
      (s.control.mode = .run → s.vref < s.shadow.standstillSpeed) := by
  simp only [atRest, Bool.and_eq_true, allStand_iff, Bool.or_eq_true, decide_eq_true_eq]
  have mode := (active_iff s).1 active
  cases hm : s.control.mode with
  | setup => exact absurd hm mode
  | run => simp
  | fallback => simp

theorem requestSetup_atRest {s : State} (active : s.active = true) (rest : atRest s = true) :
    requestSetup s = setupEntry s := by
  simp only [requestSetup, active, rest, if_true]

/-! ### What SETUP entry leaves -/

theorem settle_alert (s : State) : (settle s).lines.alert = alertLevel (settle s) := rfl

/-- No line is cut in SETUP (R76). -/
theorem cut_of_setup {s : State} (h : s.control.mode = .setup) : (lineLevels s).cut = Vector.replicate 4 false := by
  apply Vector.ext
  intro i hi
  simp [lineLevels, cutLevel, h]

/-- SETUP entry asks the arbiter anew: with the D-port free it decides for the head of a queue that is not empty, and
with the D-port taken for nothing (R127, R139; log 9). -/
theorem setupEntry_decision {s : State} (waiting : s.emission.queue ≠ []) :
    (setupEntry s).emission.decision = if s.emission.inFlight = none then some .head else none := by
  have unwanted : BogieSet.lowest BogieSet.none = none := by decide
  show (Emission.arbitrate _).decision = _
  cases hf : s.emission.inFlight with
  | none => simp [Emission.arbitrate, Emission.choice, unwanted, waiting, hf]
  | some f => simp [Emission.arbitrate, hf]

/-- A master's snapshot after SETUP entry: one of a speed record is gone, and any other stays (R163). -/
def snapshotAtSetupEntry (slot : Option Snapshot) : Option Snapshot :=
  match slot with
  | some p => if p.kind = .speedRecord then none else some p
  | none => none

theorem setupEntry_snapshot (s : State) (g : Tag) :
    (setupEntry s).overlay.snapshots[g] = snapshotAtSetupEntry s.overlay.snapshots[g] :=
  Vector.getElem_map ..

theorem snapshot_released (tag g : Tag) (o : Overlay) :
    (released tag o).snapshots[g] = if g = tag then none else o.snapshots[g] := by
  by_cases own : g = tag
  · rw [if_pos own, own]
    exact set_same _ _ _
  · rw [if_neg own]
    exact set_other _ _ _ _ (Ne.symm own)

/-- Settles O23: the mode request finds the part at rest, and SETUP entry resets every block. -/
theorem aSetupRequestAtRestEntersSetup : Obligations.ASetupRequestAtRestEntersSetup := by
  intro s a z d h hd active room hold slow
  have rest : atRest (modeWriteCleared a z d s) = true :=
    (atRest_iff (s := modeWriteCleared a z d s) active).2 ⟨hold, slow⟩
  have entry : exec (.modeRequestSetup 0 a z d) s = done (setupEntry (modeWriteCleared a z d s)) := by
    rw [exec_write s (c := .modeRequestSetup 0 a z d) rfl, presentWrite_requestSetup h hd room]
    exact congrArg done (requestSetup_atRest active rest)
  have waiting : (modeWriteCleared a z d s).emission.queue ≠ [] := List.append_ne_nil_of_right_ne_nil _ (by simp)
  have empty : BogieSet.isEmpty BogieSet.none = true := by decide
  have snapshot (g : Tag) : (setupEntry (modeWriteCleared a z d s)).overlay.snapshots[g] =
      snapshotAtSetupEntry (if g = 0 then none else s.overlay.snapshots[g]) :=
    (setupEntry_snapshot _ g).trans (congrArg snapshotAtSetupEntry (snapshot_released 0 g s.overlay))
  refine ⟨_, entry, rfl, rfl, rfl, rfl, rfl, fun b => Vector.getElem_map .., rfl, rfl, rfl,
    fun b => Vector.getElem_replicate .., rfl, rfl, rfl, empty, setupEntry_decision waiting, rfl, snapshot 0,
    fun g other => (snapshot g).trans ?_, rfl, cut_of_setup rfl, settle_alert _, rfl, rfl, rfl, rfl, rfl⟩
  rw [if_neg other]
  rfl

end Sys2Proof.Machine
end

section
/-! PROOFS. 02_wheel_speed_intake_and_the_reference_speed.md: the staleness expiry and the loss of the reference
(R33, R40, R58, R152). -/

namespace Sys2Proof.Machine

/-! ### The axle becomes STALE (R33, R58) -/

/-- The axle records with axle n's at its staleness expiry. -/
def expiredAxles (n : AxleNo) (s : State) : Vector Axle 8 :=
  s.axles.set n s.axles[n].expire

/-- The part with the axle STALE, its notice raised and its bogie's rewrite asked for, before the reference is looked
at: the first part of `stalenessExpires`. -/
def staled (n : AxleNo) (s : State) : State :=
  requestRewrite (s.shadow.axleBogie n) (raise .axleStale n.val (sandersReact (setAxle n s.axles[n].expire s)))

theorem exec_stalenessExpiry {s : State} {n : AxleNo} (due : stalenessDue s n = true) :
    exec (.stalenessExpiry n) s = done (loseReference (staled n s)) :=
  congrArg done (if_pos due)

/-- The state that `staled` leaves, given the sanders' records, the rewrite set and the arbiter's decision. -/
def staleState (n : AxleNo) (v : Vector Sander 4) (r : BogieSet) (d : Option Choice) (s : State) : State :=
  { s with
    axles := expiredAxles n s
    notices := noted .axleStale n.val s.timeBase s.notices
    sand := { s.sand with sanders := v }
    emission := { s.emission with rewriteSet := r, decision := d } }

/-- The event at the axle's exit changes the sanders, and rewrite requests; the expiry adds the notice and the request
of the axle's bogie. -/
theorem staled_eq (n : AxleNo) (s : State) : ∃ v,
    (∃ r d, sandersEvent s.allStanding none { s with axles := expiredAxles n s } =
      { s with
        axles := expiredAxles n s
        sand := { s.sand with sanders := v }
        emission := { s.emission with rewriteSet := r, decision := d } }) ∧
    ∃ r d, staled n s = staleState n v r d s ∧ (s.active = true → r[s.shadow.axleBogie n] = true) := by
  obtain ⟨v, r, d, change, -⟩ := sandersEvent_change s.allStanding none { s with axles := expiredAxles n s }
  obtain ⟨u, raised⟩ : ∃ u, u = raise .axleStale n.val (sandersReact (setAxle n s.axles[n].expire s)) := ⟨_, rfl⟩
  have reacted : u = raise .axleStale n.val
      (sandersEvent s.allStanding none { s with axles := expiredAxles n s }) := raised
  have requested : staled n s = requestRewrite (s.shadow.axleBogie n) u := by rw [raised, staled]
  obtain ⟨r', d', request, -⟩ := requestRewrite_change (s.shadow.axleBogie n) u
  have member := requestRewrite_member (s.shadow.axleBogie n) u
  rw [request, reacted, change] at member
  refine ⟨v, ⟨r, d, change⟩, r', d', ?_, member⟩
  rw [requested, request, reacted, change]
  rfl

/-! ### The loss of the reference (R40) -/

theorem allStale_iff (s : State) :
    allStale s = true ↔ ∀ m : AxleNo, s.shadow.axleEnabled m = true → s.axles[m].state = .stale := by
  simp only [allStale, all_upTo8, Bool.or_eq_true, Bool.not_eq_true', ← Bool.not_eq_true, decide_eq_true_eq,
    ← imp_iff_not_or]

/-- The expired axle is STALE, so that the others decide whether every enabled axle is. -/
theorem allStale_staleState (n : AxleNo) (v : Vector Sander 4) (r : BogieSet) (d : Option Choice) (s : State) :
    allStale (staleState n v r d s) = true ↔
      ∀ m : AxleNo, m ≠ n → s.shadow.axleEnabled m = true → s.axles[m].state = .stale := by
  have own : (staleState n v r d s).axles[n].state = .stale := congrArg Axle.state (set_same _ _ _)
  have other (m : AxleNo) (h : m ≠ n) : (staleState n v r d s).axles[m] = s.axles[m] := set_other _ _ _ _ h.symm
  rw [allStale_iff]
  refine ⟨fun all m h enabled => other m h ▸ all m enabled, fun others m enabled => ?_⟩
  by_cases h : m = n
  · exact h ▸ own
  · rw [other m h]
    exact others m h enabled

/-- The expiry has left every enabled axle STALE, with a reference to lose (R40). -/
def LosesReference (u : State) : Prop :=
  u.active = true ∧ u.intake.vref.isSome = true ∧ allStale u = true

theorem loseReference_none {u : State} (h : ¬ LosesReference u) : loseReference u = u := by
  refine if_neg fun k => h ?_
  simp only [Bool.and_eq_true] at k
  exact ⟨k.1.1, k.2, k.1.2⟩

theorem loseReference_lost {u : State} (h : LosesReference u) :
    loseReference u =
      if u.control.mode = .run then fallbackEntry .refLost (raise .refLost 0 u) else raise .refLost 0 u := by
  obtain ⟨active, vrefSet, stale⟩ := h
  exact if_pos (by simp only [active, vrefSet, stale, Bool.and_self])

theorem loseReference_inRun {u : State} (h : LosesReference u) (inRun : u.control.mode = .run) :
    loseReference u = fallbackEntry .refLost (raise .refLost 0 u) :=
  (loseReference_lost h).trans (if_pos inRun)

theorem loseReference_inFallback {u : State} (h : LosesReference u) (other : u.control.mode ≠ .run) :
    loseReference u = raise .refLost 0 u :=
  (loseReference_lost h).trans (if_neg other)

/-- What FALLBACK entry leaves: the mode and its cause, the sanders after an event that sees the new mode, and a rewrite
request for every bogie within the bogie count, with none withdrawn (R110, R122, R152). -/
theorem fallbackEntry_eq (cause : FallbackCause) (u : State) :
    ∃ v r d, fallbackEntry cause u =
        { u with
          control := { u.control with mode := .fallback, fallbackCause := cause }
          sand := { u.sand with sanders := v }
          emission := { u.emission with rewriteSet := r, decision := d } } ∧
      { u.sand with sanders := v } = (sandersEvent u.allStanding none
        { u with control := { u.control with mode := .fallback, fallbackCause := cause } }).sand ∧
      (∀ b, u.shadow.counts b = true → r[b] = true) ∧
      ∀ b : BogieNo, u.emission.rewriteSet[b] = true → r[b] = true := by
  have requests := fallbackEntry_requests cause u
  have sand := fallbackEntry_sand cause u
  obtain ⟨v, r, d, change, keeps, -⟩ := fallbackEntry_change cause u
  generalize fallbackEntry cause u = t at *
  subst change
  exact ⟨v, r, d, rfl, sand, requests, keeps⟩

/-- The sanders see neither the notices of the expiry nor the rewrites it asks for: FALLBACK entry's event finds them as
the event at the axle's exit left them (log 13). -/
theorem staleState_event {n : AxleNo} {v : Vector Sander 4} {r r0 : BogieSet} {d d0 : Option Choice} {s : State}
    (event : sandersEvent s.allStanding none { s with axles := expiredAxles n s } =
      { s with
        axles := expiredAxles n s
        sand := { s.sand with sanders := v }
        emission := { s.emission with rewriteSet := r0, decision := d0 } }) (c : Control) :
    (sandersEvent s.allStanding none { raise .refLost 0 (staleState n v r d s) with control := c }).sand =
      (sandersEvent s.allStanding none
        { sandersEvent s.allStanding none { s with axles := expiredAxles n s } with control := c }).sand := by
  have seen : SandersSee { sandersEvent s.allStanding none { s with axles := expiredAxles n s } with control := c }
      { raise .refLost 0 (staleState n v r d s) with control := c } := by
    rw [event]
    exact ⟨rfl, rfl, rfl, rfl, rfl, fun _ => Iff.rfl, rfl, rfl⟩
  exact seen.unit (by rw [event]; rfl) s.allStanding none

/-- The notices of an expiry with the loss of the reference: two kinds, each raised once (R155). -/
theorem noted_refLost (i : Nat) (now : Word) (t : Vector Notice 15) :
    let both := noted .refLost 0 now (noted .axleStale i now t)
    both[NoticeKind.axleStale.slot] = t[NoticeKind.axleStale.slot].raised (BitVec.ofNat 8 i) now ∧
      both[NoticeKind.refLost.slot] = t[NoticeKind.refLost.slot].raised 0 now := by
  constructor
  · rw [noted_other _ _ _ _ _ (by decide), noted_same]
  · rw [noted_same, noted_other _ _ _ _ _ (by decide)]
    rfl

/-- Settles O28: the axle becomes STALE, and then the reference is lost, with FALLBACK entry in RUN, or it is not. -/
theorem aStalenessExpiryMakesTheAxleStale : Obligations.AStalenessExpiryMakesTheAxleStale := by
  intro s n t0 running elapsed
  have due : stalenessDue s n = true := (timerDue_iff _ _ _).2 ⟨t0, running, elapsed⟩
  obtain ⟨v, ⟨r0, d0, event⟩, r, d, stale, member⟩ := staled_eq n s
  have sand : { s.sand with sanders := v } =
      (sandersEvent s.allStanding none { s with axles := expiredAxles n s }).sand := by rw [event]
  have loses : LosesReference (staleState n v r d s) ↔ s.active = true ∧ s.intake.vref.isSome = true ∧
      ∀ m : AxleNo, m ≠ n → s.shadow.axleEnabled m = true → s.axles[m].state = .stale := by
    rw [LosesReference, allStale_staleState]
    rfl
  refine ⟨_, exec_stalenessExpiry due, ?_⟩
  rw [stale]
  by_cases lost : LosesReference (staleState n v r d s)
  · have gone := loses.1 lost
    obtain ⟨staleNotice, lostNotice⟩ := noted_refLost n.val s.timeBase s.notices
    by_cases inRun : s.control.mode = .run
    · obtain ⟨v', r', d', entry, reacted, requests, keeps⟩ :=
        fallbackEntry_eq .refLost (raise .refLost 0 (staleState n v r d s))
      rw [loseReference_inRun lost inRun, entry]
      exact ⟨rfl, staleNotice, fun active => keeps _ (member active),
        fun _ => ⟨lostNotice, fun _ => ⟨rfl, requests, reacted.trans (staleState_event event _)⟩,
          fun k => absurd (inRun.symm.trans k) (by decide)⟩,
        fun k => absurd gone k, ⟨rfl, rfl, rfl, rfl, rfl⟩, rfl, rfl, rfl, rfl, rfl, rfl, rfl, rfl, rfl⟩
    · rw [loseReference_inFallback lost inRun]
      exact ⟨rfl, staleNotice, member, fun _ => ⟨lostNotice, fun k => absurd k inRun, fun _ => ⟨rfl, sand⟩⟩,
        fun k => absurd gone k, ⟨rfl, rfl, rfl, rfl, rfl⟩, rfl, rfl, rfl, rfl, rfl, rfl, rfl, rfl, rfl⟩
  · rw [loseReference_none lost]
    exact ⟨rfl, noted_same _ _ _ _, member, fun k => absurd (loses.2 k) lost, fun _ => ⟨rfl, rfl, sand⟩,
      ⟨rfl, rfl, rfl, rfl, rfl⟩, rfl, rfl, rfl, rfl, rfl, rfl, rfl, rfl, rfl⟩

end Sys2Proof.Machine
end

section
/-! PROOFS. 03_adhesion_estimation_and_axle_states.md, 11_the_control_page_and_record_layouts.md: the clears and
acknowledgements of a control record write (R62, R156, R168). -/

namespace Sys2Proof.Machine

/-- The control page begins at a multiple of 4, so an aligned access lies at an aligned offset of it (R6, R164). -/
theorem onPage_aligned {s : State} {a : Address} {z : AccessSize} {off : Nat} (h : OnPage s a z off) :
    off % z.bytes = 0 := by
  obtain ⟨-, aligned, place⟩ := h
  obtain ⟨address, -⟩ := pageOffset_some place
  simp only [alignedAccess, beq_iff_eq, address, State.pageBase] at aligned
  cases z <;> simp only [AccessSize.bytes] at aligned ⊢ <;> omega

/-- An aligned write to bytes 0 to 3 of the control record ends before the refills. -/
theorem onPage_below_refills {s : State} {a : Address} {z : AccessSize} {off : Nat} (h : OnPage s a z off)
    (low : off < 0x24) : off + z.bytes ≤ 0x24 := by
  have aligned := onPage_aligned h
  cases z <;> simp only [AccessSize.bytes] at aligned ⊢ <;> omega

/-- A control record write to bytes 0 to 3 with no mode request is accepted (R167). -/
theorem decidePageWrite_clears {off : Nat} {d : Word} (s : State) (z : AccessSize) (first : 0x20 ≤ off)
    (low : off < 0x24) (idle : off = 0x20 → d.toNat % 256 = 0) : decidePageWrite s 0 off z d = .accept := by
  have region : 0x20 ≤ off ∧ off < 0x40 := by omega
  have allowed : controlWriteRefused off z d = false := by
    simp only [controlWriteRefused, byteOf_zero_toNat, Bool.or_eq_false_iff, Bool.and_eq_false_iff,
      decide_eq_false_iff_not]
    omega
  simp only [decidePageWrite, ne_eq, not_true_eq_false, if_false, region, and_self, if_true, allowed,
    Bool.false_eq_true]

/-- Mode code 0 requests nothing, nor does a write that leaves the mode byte uncovered (R148, R168). -/
theorem carriedModeRequest_idle {off : Nat} {d : Word} (z : AccessSize) (s : State) (first : 0x20 ≤ off)
    (idle : off = 0x20 → d.toNat % 256 = 0) : carriedModeRequest off z d s = s := by
  rcases Nat.eq_or_lt_of_le first with here | beyond
  · subst here
    have code : byteOf d 0 = 0 := BitVec.eq_of_toNat_eq ((byteOf_zero_toNat d).trans (idle rfl))
    have size : 0 < z.bytes := by cases z <;> decide
    have covered : coveredByte 0x20 z d 0 = some (byteOf d 0) := coveredByte_some d (by omega)
    have noRun : ¬ (0 : Byte) = 1 := by decide
    have noSetup : ¬ (0 : Byte) = 2 := by decide
    simp only [carriedModeRequest, covered, code, noRun, noSetup, if_false]
  · exact carriedModeRequest_none d s beyond

/-- Such a write takes its entry, and then clears and acknowledges (R62, R156, R165). -/
theorem presentWrite_clears {s : State} {a : Address} {z : AccessSize} {d : Word} {off : Nat} (h : OnPage s a z off)
    (first : 0x20 ≤ off) (low : off < 0x24) (idle : off = 0x20 → d.toNat % 256 = 0) (room : HasRoom s) :
    presentWrite 0 a z d s =
      acknowledge (carriedAcknowledge off z d) (clearPersistentFlags (carriedMask off z d) (pageWriteTaken s a z d)) :=
  calc presentWrite 0 a z d s
      = pageActions off z d (pageWriteTaken s a z d) := by
        rw [presentWrite_page 0 d h, pageWriteTreatment_accept (decidePageWrite_clears s z first low idle) room]
    _ = controlActions off z d (pageWriteTaken s a z d) := if_pos (by omega)
    _ = _ := by rw [controlActions_low d _ (onPage_below_refills h low), carriedModeRequest_idle z _ first idle]

section
variable {off : Nat} {z : AccessSize} (d : Word)

theorem carriedMask_covered (h : off ≤ 0x21 ∧ 0x21 < off + z.bytes) : carriedMask off z d = byteOf d (0x21 - off) :=
  congrArg (Option.getD · 0) (coveredByte_some d h)

theorem carriedMask_uncovered (h : ¬ (off ≤ 0x21 ∧ 0x21 < off + z.bytes)) : carriedMask off z d = 0 :=
  congrArg (Option.getD · 0) (coveredByte_none d h)

theorem carriedAcknowledge_both (h : off ≤ 0x22 ∧ 0x23 < off + z.bytes) :
    carriedAcknowledge off z d = le16 (byteOf d (0x22 - off)) (byteOf d (0x23 - off)) := by
  rw [carriedAcknowledge, coveredByte_some d (by omega), coveredByte_some d (by omega)]
  rfl

theorem carriedAcknowledge_low (h : off ≤ 0x22 ∧ off + z.bytes = 0x23) :
    carriedAcknowledge off z d = le16 (byteOf d (0x22 - off)) 0 := by
  rw [carriedAcknowledge, coveredByte_some d (by omega), coveredByte_none d (by omega)]
  rfl

theorem carriedAcknowledge_high (h : off = 0x23) : carriedAcknowledge off z d = le16 0 (byteOf d 0) := by
  have size : 0 < z.bytes := by cases z <;> decide
  subst h
  rw [carriedAcknowledge, coveredByte_none d (by omega), coveredByte_some d (by omega)]
  rfl

theorem carriedAcknowledge_uncovered (h : off + z.bytes ≤ 0x22) : carriedAcknowledge off z d = 0 := by
  rw [carriedAcknowledge, coveredByte_none d (by omega), coveredByte_none d (by omega)]
  rfl

end

/-- Settles O24: the write's actions are its clears and acknowledgements alone, and each aligned form of a write to
bytes 0 to 3 covers the mask byte or not and of the acknowledge set's two bytes none, one or both. -/
theorem aControlWriteClearsFlagsAndNotices : Obligations.AControlWriteClearsFlagsAndNotices := by
  refine ⟨fun s a z d off h first low idle room c hc => ?_, fun d => ⟨?_, ?_, ?_, ?_, ?_, ?_, ?_⟩⟩
  · have carries : writeOf c = some (0, a, z, d) := by rcases hc with rfl | rfl <;> rfl
    rw [exec_write s carries, presentWrite_clears h first low idle room]
    rfl
  · exact ⟨carriedMask_uncovered d (by decide), carriedAcknowledge_uncovered d (by decide)⟩
  · exact ⟨carriedMask_covered d (by decide), carriedAcknowledge_uncovered d (by decide)⟩
  · exact ⟨carriedMask_covered d (by decide), carriedAcknowledge_both d (by decide)⟩
  · exact ⟨carriedMask_covered d (by decide), carriedAcknowledge_uncovered d (by decide)⟩
  · exact ⟨carriedMask_none d (by decide), carriedAcknowledge_low d (by decide)⟩
  · exact ⟨carriedMask_none d (by decide), carriedAcknowledge_both d (by decide)⟩
  · exact ⟨carriedMask_none d (by decide), carriedAcknowledge_high d rfl⟩

end Sys2Proof.Machine
end

section
/-! PROOFS. 03_adhesion_estimation_and_axle_states.md: the slip-entry list and the entry into SLIP, the thresholds and
the estimator, and the transition of an evaluated sample (R45 to R59). -/

namespace Sys2Proof.Machine

/-! ### The slip-entry list (R55) -/

theorem joinEntries_short {l : List Word} (t : Word) (h : l.length < 4) : joinEntries l t = l ++ [t] := if_pos h

theorem joinEntries_full (t0 t1 t2 t3 t : Word) : joinEntries [t0, t1, t2, t3] t = [t1, t2, t3, t] := rfl

theorem persistentTest_full (w : Nat) (t0 t1 t2 t3 : Word) :
    persistentTest w [t0, t1, t2, t3] = true ↔ interval t3 t0 ≤ w := decide_eq_true_iff

theorem persistentTest_short (w : Nat) {l : List Word} (h : l.length < 4) : persistentTest w l = false := by
  match l, h with
  | [], _ => rfl
  | [_], _ => rfl
  | [_, _], _ => rfl
  | [_, _, _], _ => rfl

/-! ### An entry into SLIP (R54, R55, R110) -/

section
variable (n : AxleNo) (s : State)

theorem enterSlip_record : (enterSlip n s).axles[n] = s.axles[n].enterSlip s.shadow (axleMode s n) s.timeBase := by
  rw [enterSlip_axles]
  exact set_same _ _ _

theorem enterSlip_slipEntry_notice :
    (enterSlip n s).notices[NoticeKind.slipEntry.slot] =
      s.notices[NoticeKind.slipEntry.slot].raised (BitVec.ofNat 8 n.val) s.timeBase := by
  rw [enterSlip_notices]
  split
  · rw [noted_other _ _ _ _ _ (by decide), noted_same]
  · rw [noted_same]

theorem enterSlip_persistentSlip_notice :
    (enterSlip n s).notices[NoticeKind.persistentSlip.slot] =
      if persistentTest s.shadow.persistentWindow (joinEntries s.axles[n].slipEntries s.timeBase) then
        s.notices[NoticeKind.persistentSlip.slot].raised (BitVec.ofNat 8 n.val) s.timeBase
      else s.notices[NoticeKind.persistentSlip.slot] := by
  rw [enterSlip_notices]
  split
  · rw [noted_same, noted_other _ _ _ _ _ (by decide)]
  · rw [noted_other _ _ _ _ _ (by decide)]

end

/-- Settles O51: the list and the test by the list's length, and the entry into SLIP that uses them. -/
theorem fourSlipsInTheWindowArePersistent : Obligations.FourSlipsInTheWindowArePersistent := by
  refine ⟨fun l t => joinEntries_short t, joinEntries_full, persistentTest_full, fun w l => persistentTest_short w,
    fun n s => ⟨?_, ?_, enterSlip_persistentSlip_notice n s⟩⟩
  · rw [enterSlip_record]
    rfl
  · rw [enterSlip_record]
    exact Bool.or_eq_true_iff

/-! ### The estimator (R47, R48) -/

/-- Saturation keeps a value in the 16-bit range and takes any other to the nearer end. -/
theorem saturate16_spec (v : Int) : (-32768 ≤ v → v ≤ 32767 → saturate16 v = v) ∧
    (32767 < v → saturate16 v = 32767) ∧ (v < -32768 → saturate16 v = -32768) := by
  refine ⟨fun low high => ?_, fun high => if_pos high, fun low => ?_⟩
  · rw [saturate16, if_neg (by omega), if_neg (by omega)]
  · rw [saturate16, if_neg (by omega), if_pos low]

theorem estimate_warming (sh : Shadow) {x : Axle} (h : x.fill < 8) : estimate sh x = 0 := if_pos h

theorem estimate_warm (sh : Shadow) {x : Axle} (h : 8 ≤ x.fill) :
    estimate sh x = saturate16 (Int.fdiv (estimatorSum sh x) (2 ^ (15 - sh.gain))) := if_neg (by omega)

/-- The shift right rounds toward minus infinity. -/
theorem fdiv_two_pow_bounds (a : Int) (k : Nat) :
    Int.fdiv a (2 ^ k) * 2 ^ k ≤ a ∧ a < (Int.fdiv a (2 ^ k) + 1) * 2 ^ k := by
  have positive : (0 : Int) < 2 ^ k := by positivity
  rw [Int.fdiv_eq_ediv_of_nonneg a positive.le]
  exact ⟨Int.ediv_mul_le a positive.ne', Int.lt_ediv_add_one_mul_self a positive⟩

/-- The ring is read backward from the slot before the position, and the eighth speed back is in the position's own
slot. -/
theorem estimatorSum_eq (sh : Shadow) (x : Axle) :
    estimatorSum sh x =
      sh.coefficient 0 * x.ring[x.position - 1] + sh.coefficient 1 * x.ring[x.position - 2] +
      sh.coefficient 2 * x.ring[x.position - 3] + sh.coefficient 3 * x.ring[x.position - 4] +
      sh.coefficient 4 * x.ring[x.position - 5] + sh.coefficient 5 * x.ring[x.position - 6] +
      sh.coefficient 6 * x.ring[x.position - 7] + sh.coefficient 7 * x.ring[x.position] := by
  have back : ∀ p : Fin 8, p - 1 - 0 = p - 1 ∧ p - 1 - 1 = p - 2 ∧ p - 1 - 2 = p - 3 ∧ p - 1 - 3 = p - 4 ∧
      p - 1 - 4 = p - 5 ∧ p - 1 - 5 = p - 6 ∧ p - 1 - 6 = p - 7 ∧ p - 1 - 7 = p := by decide
  obtain ⟨h0, h1, h2, h3, h4, h5, h6, h7⟩ := back x.position
  simp only [estimatorSum, upTo8, List.map_cons, List.map_nil, List.sum_cons, List.sum_nil, add_zero, ← add_assoc,
    h0, h1, h2, h3, h4, h5, h6, h7]

/-! ### Slip magnitude and conditions (R49, R51) -/

/-- The slip magnitude counts forward slip in DRIVE, backward slip in BRAKE, and either in COAST and HOLD. -/
theorem slipMagnitude_spec (m : DemandMode) (slip : Int) :
    (m = .drive → (slipMagnitude m slip : Int) = max slip 0) ∧
      (m = .brake → (slipMagnitude m slip : Int) = max (-slip) 0) ∧
      (m = .coast ∨ m = .hold → (slipMagnitude m slip : Int) = max slip (-slip)) := by
  refine ⟨?_, ?_, ?_⟩
  · rintro rfl
    exact Int.toNat_eq_max slip
  · rintro rfl
    exact Int.toNat_eq_max (-slip)
  · rintro (rfl | rfl) <;> exact Int.natCast_natAbs slip

theorem accelerationCriterion_iff (m : DemandMode) (acceleration : Int) (a : Nat) :
    accelerationCriterion m acceleration a = true ↔
      (m = .drive ∧ (a : Int) < acceleration) ∨ (m = .brake ∧ acceleration < -(a : Int)) := by
  cases m <;> simp [accelerationCriterion]

section
variable (s : State) (n : AxleNo)

theorem slipCondition_iff : slipCondition s n = true ↔
    slipThreshold s ≤ axleMagnitude s n ∨
      (axleMode s n = .drive ∧ (s.shadow.accelerationThreshold : Int) < s.axles[n].acceleration) ∨
      (axleMode s n = .brake ∧ s.axles[n].acceleration < -(s.shadow.accelerationThreshold : Int)) := by
  rw [slipCondition, Bool.or_eq_true, decide_eq_true_iff, accelerationCriterion_iff]

theorem creepCondition_iff : creepCondition s n = true ↔
    creepThreshold s ≤ axleMagnitude s n ∧ slipCondition s n = false := by
  rw [creepCondition, Bool.and_eq_true, decide_eq_true_iff, Bool.not_eq_true']

end

/-- Settles O49: the thresholds as defined, the estimator by its warming and its rounding shift, and the magnitude and
the conditions by the standing mode. -/
theorem theThresholdsAndTheEstimator : Obligations.TheThresholdsAndTheEstimator := by
  refine ⟨fun s => ?_, fun sh x => ⟨estimate_warming sh, fun warm => ?_, estimatorSum_eq sh x⟩, fun s n => ?_⟩
  · rw [creepThreshold, slipThreshold, State.vref]
    cases s.intake.vref with
    | none => exact ⟨rfl, rfl⟩
    | some v => exact ⟨rfl, rfl⟩
  · obtain ⟨below, above⟩ := fdiv_two_pow_bounds (estimatorSum sh x) (15 - sh.gain)
    rw [estimate_warm sh warm]
    exact ⟨_, below, above, saturate16_spec _⟩
  · obtain ⟨drive, brake, other⟩ := slipMagnitude_spec (axleMode s n) s.axles[n].slip
    exact ⟨rfl, drive, brake, other, slipCondition_iff s n, creepCondition_iff s n⟩

/-! ### The transition from each adhesion state (R52, R53, R56, R57, R59) -/

section
variable {s : State} {n : AxleNo}

/-- The slip condition takes GRIP, CREEP and RECOVER into SLIP. -/
theorem transition_slipping (h : s.axles[n].state = .grip ∨ s.axles[n].state = .creep ∨ s.axles[n].state = .recover)
    (slips : slipCondition s n = true) : transition n s = enterSlip n s := by
  rcases h with h | h | h <;> simp only [transition, h, slips, if_true]

theorem transition_grip (h : s.axles[n].state = .grip) (holds : slipCondition s n = false) :
    transition n s =
      if creepThreshold s ≤ axleMagnitude s n then
        setAxle n { s.axles[n] with state := .creep, entryEffort := s.axles[n].lastEmitted.natAbs } s
      else s := by
  have creeps : creepCondition s n = true ↔ creepThreshold s ≤ axleMagnitude s n :=
    (creepCondition_iff s n).trans (and_iff_left holds)
  simp only [transition, h, holds, Bool.false_eq_true, if_false, creeps]

theorem transition_creep (h : s.axles[n].state = .creep) (holds : slipCondition s n = false) :
    transition n s =
      if axleMagnitude s n < creepThreshold s - s.shadow.hysteresis then
        setAxle n { s.axles[n] with state := .grip } s
      else s := by
  simp only [transition, h, holds, Bool.false_eq_true, if_false]

theorem transition_slip (h : s.axles[n].state = .slip) :
    transition n s =
      if slipEnds s n then sandersReact (setAxle n (s.axles[n].enterRecover s.axles[n].cutLevel s.timeBase) s)
      else s := by
  simp only [transition, h]

theorem transition_recover (h : s.axles[n].state = .recover) (holds : slipCondition s n = false) :
    transition n s = s := by
  simp only [transition, h, holds, Bool.false_eq_true, if_false]

theorem transition_stale (h : s.axles[n].state = .stale) :
    transition n s = setAxle n (s.axles[n].enterRecover (s.shadow.staleLimit n) s.timeBase) s := by
  simp only [transition, h]

/-- The three tests of R56, once the time of the entry is known. -/
theorem slipEnds_iff {t0 : Word} (entry : s.axles[n].slipEntry = some t0) : slipEnds s n = true ↔
    s.shadow.slipDwell ≤ interval s.timeBase t0 ∧ axleMagnitude s n < creepThreshold s ∧
      -(s.shadow.accelerationThreshold : Int) ≤ s.axles[n].acceleration ∧
      s.axles[n].acceleration ≤ (s.shadow.accelerationThreshold : Int) := by
  simp only [slipEnds, entry, Bool.and_eq_true, decide_eq_true_eq, and_assoc]

/-- A SLIP exit: the record in RECOVER, and the sanders' event that finds it so (R56, R110). -/
theorem slipExit_event (x : Axle) :
    (sandersReact (setAxle n x s)).axles[n] = x ∧
      sandersReact (setAxle n x s) =
        sandersEvent s.allStanding none { s with axles := (sandersReact (setAxle n x s)).axles } := by
  rw [sandersReact_axles]
  exact ⟨set_same _ _ _, rfl⟩

end

theorem transition_other (s : State) {n e : AxleNo} (h : e ≠ n) : (transition n s).axles[e] = s.axles[e] := by
  obtain ⟨x, axles, -⟩ := transition_axles n s
  rw [axles]
  exact set_other _ _ _ _ h.symm

/-- Settles O50: the other axles' records stay, and the axle's own state decides which of the equations of `transition`
applies. -/
theorem anEvaluatedSampleMakesItsTransition : Obligations.AnEvaluatedSampleMakesItsTransition := by
  intro s n
  refine ⟨fun e other => transition_other s other, fun h slips => ?_, fun h holds creeps => ?_,
    fun h holds grips => ?_, fun h holds grips => ?_, fun h holds creeps => ?_, fun t0 h entry => ⟨fun ends => ?_,
    fun goesOn => ?_⟩, fun h holds => transition_recover h holds, fun h => transition_stale h⟩
  · have outside : s.axles[n].state ≠ .slip := by rcases h with h | h | h <;> rw [h] <;> decide
    have request := transition_request n s
    rw [transition_slipping h slips, enterSlip_record] at request ⊢
    exact ⟨rfl, rfl, rfl, rfl, enterSlip_slipEntry_notice n s, fun active => request active outside rfl,
      enterSlip_sand n s⟩
  · exact (transition_grip h holds).trans (if_pos creeps)
  · exact (transition_grip h holds).trans (if_neg (Nat.not_le.2 grips))
  · exact (transition_creep h holds).trans (if_pos grips)
  · exact (transition_creep h holds).trans (if_neg (Nat.not_lt.2 creeps))
  · rw [(transition_slip h).trans (if_pos ((slipEnds_iff entry).2 ends))]
    exact slipExit_event _
  · exact (transition_slip h).trans (if_neg fun ends => goesOn ((slipEnds_iff entry).1 ends))

end Sys2Proof.Machine
end

section
/-! PROOFS. 04_traction_effort_shaping_and_cut_lines.md: the cut lines and ALERT at every step (R76, R158). -/

namespace Sys2Proof.Machine

/-! ### What moves no line -/

/-- No line's level depends on the commands that wait. -/
theorem lineLevels_withPending (s : State) (l : List Instr) : lineLevels (s.withPending l) = lineLevels s := rfl

/-- No line's level depends on the races drawn. -/
theorem lineLevels_withRaces (s : State) (k : Nat) : lineLevels (s.withRaces k) = lineLevels s := rfl

/-- The passing of time moves no line: no level depends on the time base, the reference unit or the sanders. -/
theorem lineLevels_tick (s : State) : lineLevels (tick s) = lineLevels s := rfl

/-- A state whose lines and whose levels are another's is settled with it. -/
theorem LinesSettled.of_same {s t : State} (h : LinesSettled s) (lines : t.lines = s.lines)
    (levels : lineLevels t = lineLevels s) : LinesSettled t := by
  rw [linesSettled_iff] at h ⊢
  rw [lines, levels, h]

/-- Settles O55: every command ends with its lines settled, and between two commands nothing moves a line or its level. -/
theorem everyStepKeepsTheLinesSettled : Obligations.EveryStepKeepsTheLinesSettled :=
  step_keeps LinesSettled (fun s l h => h.of_same rfl (lineLevels_withPending s l))
    (fun s k h => h.of_same rfl (lineLevels_withRaces s k)) (fun s h => h.of_same rfl (lineLevels_tick s))
    (fun _ _ t _ _ => linesSettled_settle t)

end Sys2Proof.Machine
end

section
/-! PROOFS. 04_traction_effort_shaping_and_cut_lines.md: the shaped motor command, its effective maximum and its ceiling
(R67 to R71). -/

namespace Sys2Proof.Machine

/-! ### The shaped motor (R67, R69) -/

section
variable {s : State} {b : BogieNo} {q : Request} {slot : Slot}

theorem shapedMotor_empty (empty : s.shadow.axleAt b slot = none) : shapedMotor s b q slot = 0 := by
  simp only [shapedMotor, empty]

theorem shapedMotor_occupied {n : AxleNo} (seat : s.shadow.axleAt b slot = some n) :
    shapedMotor s b q slot =
      if q.isolates slot then 0 else min (q.traction slot) (min (effectiveMaximum s n) (ceiling s n)) := by
  simp only [shapedMotor, seat]

theorem shapedMotor_isolated (isolated : q.isolates slot = true) : shapedMotor s b q slot = 0 := by
  cases seat : s.shadow.axleAt b slot with
  | none => exact shapedMotor_empty seat
  | some n => exact (shapedMotor_occupied seat).trans (if_pos isolated)

end

/-! ### The effective maximum and the ceilings (R68, R70, R71) -/

section
variable {s : State} {n : AxleNo}

theorem effectiveMaximum_full (h : s.axles[n].persistent = false) :
    effectiveMaximum s n = s.shadow.maximumEffort n := by
  simp only [effectiveMaximum, h, Bool.false_eq_true, if_false]

theorem effectiveMaximum_capped (h : s.axles[n].persistent = true) :
    effectiveMaximum s n = s.shadow.maximumEffort n * s.shadow.persistentCap / 32768 := by
  simp only [effectiveMaximum, h, if_true]

theorem ceiling_grip (h : s.axles[n].state = .grip) : ceiling s n = s.shadow.maximumEffort n := by
  simp only [ceiling, h]

theorem ceiling_creep (h : s.axles[n].state = .creep) : ceiling s n = s.axles[n].entryEffort := by
  simp only [ceiling, h]

theorem ceiling_slip (h : s.axles[n].state = .slip) : ceiling s n = s.axles[n].cutLevel := by
  simp only [ceiling, h]

theorem ceiling_stale (h : s.axles[n].state = .stale) : ceiling s n = s.shadow.staleLimit n := by
  simp only [ceiling, h]

theorem ceiling_recover (h : s.axles[n].state = .recover) : ceiling s n = recoverCeiling s n := by
  simp only [ceiling, h]

theorem recoverCeiling_since {t0 : Word} (entry : s.axles[n].recoverEntry = some t0) :
    recoverCeiling s n =
      min (s.axles[n].ceilingBase + s.shadow.rampRate * interval s.timeBase t0 / 10000) (s.shadow.maximumEffort n) := by
  simp only [recoverCeiling, entry]

end

/-- Settles O39: the slot's three cases, the effective maximum with and without the flag, and the ceiling state by
state. -/
theorem aShapedMotorIsTheSmallestOfThree : Obligations.AShapedMotorIsTheSmallestOfThree := by
  refine ⟨fun s b q slot => ⟨shapedMotor_empty, shapedMotor_isolated, fun n seat driven => ?_⟩,
    fun s n => ⟨effectiveMaximum_full, effectiveMaximum_capped, ceiling_grip, ceiling_creep, ceiling_slip, ceiling_stale,
      fun t0 recovering entry => (ceiling_recover recovering).trans (recoverCeiling_since entry)⟩⟩
  exact (shapedMotor_occupied seat).trans (if_neg (by rw [driven]; decide))

end Sys2Proof.Machine
end

section
/-! PROOFS. 04_traction_effort_shaping_and_cut_lines.md: the maxima of motor
and friction commands (R69, R88, R132). -/

namespace Sys2Proof.Machine

/-! ### Fractions and shares -/

/-- A Q15 fraction below 1 raises no value. -/
theorem fraction_le (x : Nat) {f : Nat} (h : f ≤ 32767) : x * f / 32768 ≤ x :=
  Nat.div_le_of_le_mul (by rw [Nat.mul_comm]; exact Nat.mul_le_mul_right x (by omega))

theorem effectiveMaximum_le {s : State} (n : AxleNo) (cap : s.shadow.persistentCap ≤ 32767) :
    effectiveMaximum s n ≤ s.shadow.maximumEffort n := by
  cases flag : s.axles[n].persistent with
  | false => exact (effectiveMaximum_full flag).le
  | true => exact (effectiveMaximum_capped flag).trans_le (fraction_le _ cap)

/-- The floors of two shares in proportion to x and y exceed no total. -/
theorem floors_le (e x y : Nat) : e * x / (x + y) + e * y / (x + y) ≤ e :=
  calc e * x / (x + y) + e * y / (x + y)
    _ ≤ (e * x + e * y) / (x + y) := Nat.div_add_div_le_add_div
    _ = e * (x + y) / (x + y) := by rw [Nat.mul_add]
    _ ≤ e := Nat.div_le_of_le_mul (Nat.mul_comm _ _).le

/-- What a total within x + y has beyond x, y's floor covers. -/
theorem le_add_floor {e x y : Nat} (h : e ≤ x + y) : e ≤ x + e * y / (x + y) := by
  rcases Nat.lt_or_ge x e with beyond | within
  case inr => exact within.trans (Nat.le_add_right _ _)
  obtain ⟨d, rfl⟩ := Nat.exists_eq_add_of_le beyond.le
  have le : d ≤ y := Nat.le_of_add_le_add_left h
  refine Nat.add_le_add_left ((Nat.le_div_iff_mul_le (by omega)).2 ?_) x
  calc d * (x + y)
    _ = x * d + d * y := by ring
    _ ≤ x * y + d * y := by gcongr
    _ = (x + d) * y := by ring

/-- The first share exceeds no availability, the remainder included (R88). -/
theorem firstShare_le {e x y : Nat} (h : e ≤ x + y) :
    e * x / (x + y) + (e - (e * x / (x + y) + e * y / (x + y))) ≤ x := by
  have sum := floors_le e x y
  have covered := le_add_floor h
  generalize e * x / (x + y) = floorX at *
  generalize e * y / (x + y) = floorY at *
  omega

/-- The second share exceeds no availability, the remainder included (R88). -/
theorem secondShare_le {e x y : Nat} (h : e ≤ x + y) :
    e * y / (x + y) + (e - (e * x / (x + y) + e * y / (x + y))) ≤ y := by
  rw [Nat.add_comm x y] at h ⊢
  rw [Nat.add_comm (e * x / (y + x))]
  exact firstShare_le h

/-- A division by a total of 0 is 0 as R88 has it. -/
theorem share_total (e x t : Nat) : (if t = 0 then 0 else e * x / t) = e * x / t := by
  split
  · simp [*]
  · rfl

/-! ### The shares and the friction of a blend (R87 to R89) -/

theorem blend_shareA_le (s : State) (b : BogieNo) (q : Request) : (blend s b q).shareA ≤ availability s b q .a := by
  have withRemainder := firstShare_le (Nat.min_le_right q.brake (availability s b q .a + availability s b q .b))
  simp only [blend, share_total]
  split
  · exact withRemainder
  · exact (Nat.le_add_right _ _).trans withRemainder

theorem blend_shareB_le (s : State) (b : BogieNo) (q : Request) : (blend s b q).shareB ≤ availability s b q .b := by
  have withRemainder := secondShare_le (Nat.min_le_right q.brake (availability s b q .a + availability s b q .b))
  simp only [blend, share_total]
  split
  · exact (Nat.le_add_right _ _).trans withRemainder
  · exact withRemainder

theorem availability_empty {s : State} {b : BogieNo} (q : Request) {slot : Slot}
    (empty : s.shadow.axleAt b slot = none) : availability s b q slot = 0 := by
  simp only [availability, empty]

theorem availability_le {s : State} {b : BogieNo} (q : Request) {slot : Slot} {n : AxleNo}
    (seat : s.shadow.axleAt b slot = some n) : availability s b q slot ≤ effectiveMaximum s n := by
  simp only [availability, seat]
  split_ifs <;> omega

theorem brakeFriction_le {s : State} {b : BogieNo} (r e : Nat) (release : s.shadow.slideRelease b ≤ 32767) :
    brakeFriction s b r e ≤ s.shadow.frictionMaximum b := by
  have limited := Nat.min_le_right (r - e) (s.shadow.frictionMaximum b)
  unfold brakeFriction
  split
  · exact (fraction_le _ release).trans limited
  · exact limited

/-! ### Commands within their maxima -/

/-- A motor command of a slot is within its axle's maximum effort, and 0 in an empty slot. -/
def MotorFits (s : State) (b : BogieNo) (slot : Slot) (m : Int) : Prop :=
  (∀ n, s.shadow.axleAt b slot = some n → m.natAbs ≤ s.shadow.maximumEffort n) ∧
    (s.shadow.axleAt b slot = none → m = 0)

/-- The friction command and both motor commands are within their maxima. -/
structure CommandsFit (s : State) (b : BogieNo) (c : Commands) : Prop where
  friction : c.friction ≤ s.shadow.frictionMaximum b
  motorA : MotorFits s b .a c.motorA
  motorB : MotorFits s b .b c.motorB

section
variable {s : State} {b : BogieNo}

theorem motorFits_zero (slot : Slot) : MotorFits s b slot 0 :=
  ⟨fun _ _ => Nat.zero_le _, fun _ => rfl⟩

theorem motorFits_shaped (q : Request) (slot : Slot) (cap : s.shadow.persistentCap ≤ 32767) :
    MotorFits s b slot (shapedMotor s b q slot) := by
  refine ⟨fun n seat => ?_, fun empty => by rw [shapedMotor_empty empty]; rfl⟩
  have := effectiveMaximum_le n cap
  rw [Int.natAbs_natCast, shapedMotor_occupied seat]
  split <;> omega

/-- An electric share within its slot's availability is a motor command within the axle's maximum. -/
theorem motorFits_share {q : Request} {slot : Slot} {share : Nat} (h : share ≤ availability s b q slot)
    (cap : s.shadow.persistentCap ≤ 32767) : MotorFits s b slot (-(share : Int)) := by
  refine ⟨fun n seat => ?_, fun empty => ?_⟩
  · rw [Int.natAbs_neg, Int.natAbs_natCast]
    exact h.trans ((availability_le q seat).trans (effectiveMaximum_le n cap))
  · rw [availability_empty q empty] at h
    omega

theorem commandsFit_frictionOnly {f : Nat} (h : f ≤ s.shadow.frictionMaximum b) :
    CommandsFit s b (Commands.frictionOnly f) :=
  ⟨h, motorFits_zero _, motorFits_zero _⟩

end

/-- Whichever emission the composer builds, its commands are within their maxima (R132). -/
theorem compose_fits (s : State) (b : BogieNo) (q : Request) (cap : s.shadow.persistentCap ≤ 32767)
    (release : s.shadow.slideRelease b ≤ 32767) (hold : s.shadow.holdEffort b ≤ s.shadow.frictionMaximum b)
    (fallback : s.shadow.fallbackEffort b ≤ s.shadow.frictionMaximum b) : CommandsFit s b (compose s b q) := by
  unfold compose
  by_cases inFallback : s.control.mode = .fallback
  · rw [if_pos inFallback]
    exact commandsFit_frictionOnly (Nat.min_le_left _ _)
  rw [if_neg inFallback]
  by_cases latched : s.hold.latch ≠ .clear
  · rw [if_pos latched]
    exact commandsFit_frictionOnly (Nat.min_le_left _ _)
  rw [if_neg latched]
  by_cases late : s.supervision[b].late = true
  · rw [if_pos late]
    exact commandsFit_frictionOnly fallback
  rw [if_neg late]
  cases q.mode with
  | coast => exact commandsFit_frictionOnly (Nat.zero_le _)
  | drive =>
    refine ⟨?_, motorFits_shaped q .a cap, motorFits_shaped q .b cap⟩
    show (if s.hold.gate = .closed then s.shadow.holdEffort b else 0) ≤ _
    split
    · exact hold
    · exact Nat.zero_le _
  | brake =>
    exact ⟨brakeFriction_le _ _ release, motorFits_share (blend_shareA_le s b q) cap,
      motorFits_share (blend_shareB_le s b q) cap⟩
  | hold => exact commandsFit_frictionOnly (Nat.min_le_left _ _)

/-- Settles O41: the composer's choice fits. -/
theorem commandsStayWithinTheirMaxima : Obligations.CommandsStayWithinTheirMaxima := by
  intro s b q cap release hold fallback
  obtain ⟨friction, ⟨maximumA, emptyA⟩, ⟨maximumB, emptyB⟩⟩ := compose_fits s b q cap release hold fallback
  exact ⟨friction, maximumA, maximumB, emptyA, emptyB⟩

end Sys2Proof.Machine
end

section
/-! PROOFS. 04_traction_effort_shaping_and_cut_lines.md: the bytes of an emitted
record (R75, R120, R133). -/

namespace Sys2Proof.Machine

/-! ### The flags of byte 11 (R75, R133) -/

/-- The flags byte as a binary number, bit 0 first. -/
theorem EmittedFlags.byte_eq (f : EmittedFlags) : f.byte = BitVec.ofNat 8
    (Nat.bit f.slipA (Nat.bit f.slipB (Nat.bit f.stale (Nat.bit f.late
      (Nat.bit f.fallback (Nat.bit f.rollback (Nat.bit f.gateClosed (Nat.bit f.shortfall 0)))))))) := by
  simp only [EmittedFlags.byte, Nat.bit_val]
  congr 1
  omega

/-- Each flag stands at its own bit (Table 11-1). -/
theorem EmittedFlags.byte_bits (f : EmittedFlags) :
    f.byte.getLsbD 0 = f.slipA ∧ f.byte.getLsbD 1 = f.slipB ∧ f.byte.getLsbD 2 = f.stale ∧
      f.byte.getLsbD 3 = f.late ∧ f.byte.getLsbD 4 = f.fallback ∧ f.byte.getLsbD 5 = f.rollback ∧
      f.byte.getLsbD 6 = f.gateClosed ∧ f.byte.getLsbD 7 = f.shortfall := by
  rw [EmittedFlags.byte_eq]
  simp only [BitVec.getLsbD_ofNat, Nat.testBit_bit_succ, Nat.testBit_bit_zero, Nat.reduceLT, decide_true, Bool.true_and,
    and_self]

theorem slotIn_iff (s : State) (b : BogieNo) (slot : Slot) (x : AdhesionState) :
    slotIn s b slot x = true ↔ ∃ n, s.shadow.axleAt b slot = some n ∧ s.axles[n].state = x := by
  unfold slotIn
  cases s.shadow.axleAt b slot <;> simp

theorem eitherSlotIn_iff (s : State) (b : BogieNo) (x : AdhesionState) :
    (slotIn s b .a x || slotIn s b .b x) = true ↔
      ∃ slot n, s.shadow.axleAt b slot = some n ∧ s.axles[n].state = x := by
  rw [Bool.or_eq_true, slotIn_iff, slotIn_iff]
  constructor
  · rintro (inA | inB)
    · exact ⟨.a, inA⟩
    · exact ⟨.b, inB⟩
  · rintro ⟨slot, seated⟩
    cases slot with
    | a => exact .inl seated
    | b => exact .inr seated

/-! ### The nozzle of byte 10 (R120) -/

theorem sanderCommand_sanding {s : State} {b : BogieNo}
    (h : s.sand.sanders[b].state = .on ∨ s.sand.sanders[b].state = .dwell) :
    sanderCommand s b = if s.hold.direction = .fwd then 1 else 2 := by
  unfold sanderCommand
  rw [if_pos h]
  cases s.hold.direction <;> rfl

theorem sanderCommand_off {s : State} {b : BogieNo} (on : s.sand.sanders[b].state ≠ .on)
    (dwell : s.sand.sanders[b].state ≠ .dwell) : sanderCommand s b = 0 :=
  if_neg (not_or.2 ⟨on, dwell⟩)

/-- Settles O42: the halves from their bytes, the nozzle by the sander's state, and byte 11 flag by flag. -/
theorem theEmittedRecordIsFilledAsTheTableSays : Obligations.TheEmittedRecordIsFilledAsTheTableSays := by
  intro s b q c
  obtain ⟨slipA, slipB, stale, late, fallback, rollback, gate, shortfall⟩ := (emittedFlags s b c.shortfall).byte_bits
  exact ⟨rfl, rfl, rfl, rfl, le16_byteOf _, le16_byteOf _, le16_byteOf _, sanderCommand_sanding, sanderCommand_off,
    (Bool.eq_iff_iff.1 slipA).trans (slotIn_iff s b .a .slip), (Bool.eq_iff_iff.1 slipB).trans (slotIn_iff s b .b .slip),
    (Bool.eq_iff_iff.1 stale).trans (eitherSlotIn_iff s b .stale), Bool.eq_iff_iff.1 late,
    (Bool.eq_iff_iff.1 fallback).trans decide_eq_true_iff, (Bool.eq_iff_iff.1 rollback).trans decide_eq_true_iff,
    (Bool.eq_iff_iff.1 gate).trans decide_eq_true_iff, Bool.eq_iff_iff.1 shortfall, le16_byteOf _, rfl, rfl⟩

end Sys2Proof.Machine
end

section
/-! PROOFS. 05_brake_blending_and_standstill_hold.md: the counted feedback, the availability of a slot, and the shares,
the friction and the shortfall of a blend (R84, R87 to R90). -/

namespace Sys2Proof.Machine

/-! ### Counted feedback (R84) -/

/-- The zeros that stand for feedback that is absent, lapsed or in fault. -/
def FeedbackValues.uncounted : FeedbackValues :=
  { controller := .ready
    availableA := 0
    availableB := 0
    achievedA := 0
    achievedB := 0 }

theorem FeedbackValues.uncounted_zero :
    (∀ slot, FeedbackValues.uncounted.available slot = 0) ∧ ∀ slot, FeedbackValues.uncounted.achieved slot = 0 := by
  constructor <;> intro slot <;> cases slot <;> rfl

section
variable {s : State} {b : BogieNo}

theorem counted_absent (absent : s.feedback[b].latest = none) : counted s b = .uncounted := by
  simp only [counted, absent, FeedbackValues.uncounted]

theorem counted_latest {f : FeedbackValues} (latest : s.feedback[b].latest = some f) :
    counted s b = if s.feedback[b].freshness.isSome = true ∧ f.controller = .ready then f else .uncounted := by
  simp only [counted, latest, Bool.and_eq_true, decide_eq_true_iff, FeedbackValues.uncounted]

theorem counted_fresh {f : FeedbackValues} (latest : s.feedback[b].latest = some f)
    (fresh : s.feedback[b].freshness.isSome = true) (ready : f.controller = .ready) : counted s b = f :=
  (counted_latest latest).trans (if_pos ⟨fresh, ready⟩)

theorem counted_lapsed (lapsed : s.feedback[b].freshness = none) : counted s b = .uncounted := by
  cases latest : s.feedback[b].latest with
  | none => exact counted_absent latest
  | some f => exact (counted_latest latest).trans (if_neg fun ⟨fresh, _⟩ => Option.isSome_iff_ne_none.1 fresh lapsed)

theorem counted_fault {f : FeedbackValues} (latest : s.feedback[b].latest = some f) (fault : f.controller = .fault) :
    counted s b = .uncounted :=
  (counted_latest latest).trans (if_neg fun ⟨_, ready⟩ => by simp [fault] at ready)

end

/-! ### Eligibility and availability (R87) -/

section
variable {s : State} {b : BogieNo} {q : Request} {slot : Slot}

theorem eligible_iff : eligible s b q slot = true ↔ ∃ n, s.shadow.axleAt b slot = some n ∧ q.isolates slot = false ∧
    (s.axles[n].state = .grip ∨ s.axles[n].state = .creep ∨ s.axles[n].state = .recover) ∧
    s.shadow.fadeEnd ≤ s.vref := by
  unfold eligible
  cases s.shadow.axleAt b slot <;> simp [and_assoc, or_assoc]

theorem availability_ineligible (ineligible : eligible s b q slot = false) : availability s b q slot = 0 := by
  cases seat : s.shadow.axleAt b slot with
  | none => exact availability_empty q seat
  | some n => simp only [availability, seat, ineligible, Bool.false_eq_true, if_false]

/-- In RECOVER the ceiling limits the availability as well. -/
theorem availability_eligible {n : AxleNo} (seat : s.shadow.axleAt b slot = some n)
    (may : eligible s b q slot = true) :
    availability s b q slot =
      if s.axles[n].state = .recover then
        min (min (faded s ((counted s b).available slot)) (effectiveMaximum s n)) (ceiling s n)
      else min (faded s ((counted s b).available slot)) (effectiveMaximum s n) := by
  simp only [availability, seat, may, if_true]
  split
  case isTrue recovering => rw [ceiling_recover recovering]
  case isFalse => rfl

end

/-! ### The shares of a blend (R88) -/

/-- The part of a blend's electric total that is in proportion to a slot's availability, rounded down. -/
def proportionalShare (s : State) (b : BogieNo) (q : Request) (slot : Slot) : Nat :=
  (blend s b q).electric * availability s b q slot / (availability s b q .a + availability s b q .b)

section
variable (s : State) (b : BogieNo) (q : Request)

theorem proportionalShares_le :
    proportionalShare s b q .a + proportionalShare s b q .b ≤ (blend s b q).electric :=
  floors_le _ _ _

theorem proportionalShare_ineligible {slot : Slot} (ineligible : eligible s b q slot = false) :
    proportionalShare s b q slot = 0 := by
  rw [proportionalShare, availability_ineligible ineligible, Nat.mul_zero, Nat.zero_div]

/-- The remainder goes to slot A if it is eligible, and else to slot B. -/
theorem blend_shares :
    let x := blend s b q
    let remainder := x.electric - (proportionalShare s b q .a + proportionalShare s b q .b)
    x.shareA = (if eligible s b q .a then proportionalShare s b q .a + remainder else proportionalShare s b q .a) ∧
      x.shareB = if eligible s b q .a then proportionalShare s b q .b else proportionalShare s b q .b + remainder := by
  simp only [proportionalShare, blend, share_total, and_self]

/-- An eligible slot A takes what slot B's proportional share leaves. -/
theorem blend_shares_eligible (eligibleA : eligible s b q .a = true) :
    (blend s b q).shareA = (blend s b q).electric - proportionalShare s b q .b ∧
      (blend s b q).shareB = proportionalShare s b q .b := by
  have within := proportionalShares_le s b q
  obtain ⟨shareA, shareB⟩ := blend_shares s b q
  rw [if_pos eligibleA] at shareA shareB
  omega

/-- Slot B takes the whole electric total when slot A is not eligible. -/
theorem blend_shares_ineligible (ineligibleA : eligible s b q .a = false) :
    (blend s b q).shareA = 0 ∧ (blend s b q).shareB = (blend s b q).electric := by
  have within := proportionalShares_le s b q
  have noneA := proportionalShare_ineligible s b q ineligibleA
  obtain ⟨shareA, shareB⟩ := blend_shares s b q
  rw [if_neg (Bool.eq_false_iff.1 ineligibleA)] at shareA shareB
  omega

theorem blend_shares_total : (blend s b q).shareA + (blend s b q).shareB = (blend s b q).electric := by
  have within := proportionalShares_le s b q
  cases eligibleA : eligible s b q .a with
  | true =>
    obtain ⟨shareA, shareB⟩ := blend_shares_eligible s b q eligibleA
    omega
  | false =>
    obtain ⟨shareA, shareB⟩ := blend_shares_ineligible s b q eligibleA
    omega

theorem proportionalShare_le_share :
    proportionalShare s b q .a ≤ (blend s b q).shareA ∧ proportionalShare s b q .b ≤ (blend s b q).shareB := by
  have within := proportionalShares_le s b q
  cases eligibleA : eligible s b q .a with
  | true =>
    obtain ⟨shareA, shareB⟩ := blend_shares_eligible s b q eligibleA
    omega
  | false =>
    obtain ⟨shareA, shareB⟩ := blend_shares_ineligible s b q eligibleA
    have noneA := proportionalShare_ineligible s b q eligibleA
    omega

end

/-! ### The friction (R89) -/

section
variable {s : State} {b : BogieNo} (r e : Nat)

theorem brakeFriction_gripping (h : bogieSlips s b = false) :
    brakeFriction s b r e = min (r - e) (s.shadow.frictionMaximum b) :=
  if_neg (by rw [h]; decide)

theorem brakeFriction_sliding (h : bogieSlips s b = true) :
    brakeFriction s b r e = min (r - e) (s.shadow.frictionMaximum b) * s.shadow.slideRelease b / 32768 :=
  if_pos h

end

/-- Settles O40: the blend from its shares and its friction, the availability from the slot's eligibility, and the
counted values from the feedback that stands. -/
theorem theBlendSharesAddUp : Obligations.TheBlendSharesAddUp := by
  refine ⟨fun s b q => ?_, fun s b q slot => ⟨eligible_iff, availability_ineligible, fun n => availability_eligible⟩,
    fun s b => ⟨fun f => counted_fresh, fun zeroed => ?_⟩⟩
  · obtain ⟨floorA, floorB⟩ := proportionalShare_le_share s b q
    exact ⟨rfl, blend_shares_total s b q, blend_shareA_le s b q, blend_shareB_le s b q, floorA, floorB,
      fun may => (blend_shares_eligible s b q may).2, fun mayNot => (blend_shares_ineligible s b q mayNot).1,
      brakeFriction_gripping _ _, brakeFriction_sliding _ _, rfl⟩
  · have zeros : counted s b = .uncounted := by
      rcases zeroed with absent | lapsed | ⟨f, latest, fault⟩
      · exact counted_absent absent
      · exact counted_lapsed lapsed
      · exact counted_fault latest fault
    rw [zeros]
    exact FeedbackValues.uncounted_zero

end Sys2Proof.Machine
end

section
/-! PROOFS. 05_brake_blending_and_standstill_hold.md and 09_modes_and_demand_supervision.md: the expiries of the
freshness timer and of the demand timer (R83, R146). -/

namespace Sys2Proof.Machine

section
variable {s : State} {b : BogieNo}

theorem exec_freshnessExpiry (due : freshnessDue s b = true) :
    exec (.freshnessExpiry b) s = .next (settle (freshnessExpires b s)) :=
  congrArg done (if_pos due)

theorem exec_demandTimerExpiry (due : demandTimerDue s b = true) :
    exec (.demandTimerExpiry b) s = .next (settle (demandTimerExpires b s)) :=
  congrArg done (if_pos due)

/-- Outside SETUP the rewrite that the expiry asks for joins the set. -/
theorem demandTimerExpires_active (active : s.active = true) :
    demandTimerExpires b s =
      { s with
        supervision := s.supervision.set b { standing := s.standing b, late := true, timer := none }
        notices := noted .demandLate b.val s.timeBase s.notices
        emission := requested b s.emission } :=
  requestRewrite_active b _ active

end

/-- Settles O29: each timer that has elapsed is due, and its expiry is the event's own effect. -/
theorem theFreshnessAndDemandTimersExpire : Obligations.TheFreshnessAndDemandTimersExpire := by
  refine ⟨fun s b t0 runs elapsed => ?_, fun s b t0 active live runs elapsed => ?_⟩
  · exact exec_freshnessExpiry ((timerDue_iff _ _ _).2 ⟨t0, runs, elapsed⟩)
  · rw [exec_demandTimerExpiry ((demandTimerDue_iff s b).2 ⟨active, live, t0, runs, elapsed⟩),
      demandTimerExpires_active active]

end Sys2Proof.Machine
end

section
/-! PROOFS. The parts that commands are made of, and that a relation of states that holds over each part holds over every
command: what the proof of an invariant of every step goes through. -/

namespace Sys2Proof.Machine

/-- The second state is the first but for the U-port, the staging store, the overlay unit, the lines, and the emission
unit beside the rewrite set. -/
def OuterChange (s t : State) : Prop :=
  t =
    { s with
      bus := t.bus
      staging := t.staging
      overlay := t.overlay
      lines := t.lines
      emission := { t.emission with rewriteSet := s.emission.rewriteSet } }

/-- A reflexive and transitive relation that holds over each part of a command, under what the command has found. -/
structure CommandParts (K : State → State → Prop) : Prop where
  refl (s : State) : K s s
  trans {s t u : State} : K s t → K t u → K s u
  outer {s t : State} : OuterChange s t → K s t
  powerOn (straps : Fin 8) (s : State) : K s (powerOnState straps s)
  rackReset (straps : Fin 8) (s : State) : K s (rackResetState straps s)
  raise (k : NoticeKind) (i : Nat) (s : State) : K s (raise k i s)
  applySpeed (n : AxleNo) (r : Record) (s : State) : K s (applySpeed n r s)
  applyFeedback (b : BogieNo) (r : Record) (s : State) : K s (applyFeedback b r s)
  applyDemand (b : BogieNo) (s : State) : K s (applyDemand b s)
  clearFlags (mask : Byte) (s : State) : K s (clearPersistentFlags mask s)
  acknowledge (mask : Half) (s : State) : K s (acknowledge mask s)
  refill (b : BogieNo) (v : Half) (s : State) : K s (refill b v s)
  shadowWrite {s : State} (sh : Shadow) : s.active = false → K s (s.withShadow sh)
  rejectReason (r : Fin 10) (s : State) : K s (s.withControl { s.control with rejectReason := r })
  runEntry {s : State} : s.control.mode = .setup → K s (runEntry s)
  setupEntry {s : State} : s.active = true → K s (setupEntry s)
  fallbackEntry (c : FallbackCause) {s : State} : s.control.mode = .run → K s (fallbackEntry c s)
  staled {n : AxleNo} {s : State} : stalenessDue s n = true → K s (staled n s)
  freshnessExpires {b : BogieNo} {s : State} : freshnessDue s b = true → K s (freshnessExpires b s)
  demandTimerExpires {b : BogieNo} {s : State} : demandTimerDue s b = true → K s (demandTimerExpires b s)
  releaseWaitExpires {s : State} : releaseWaitDue s = true → K s (releaseWaitExpires s)
  settlingExpires {s : State} : settlingDue s = true → K s (settlingExpires s)
  windowExpires {s : State} : windowDue s = true → K s (windowExpires s)
  dwellExpires {b : BogieNo} {s : State} : dwellDue s b = true → K s (dwellExpires b s)
  runExpires {b : BogieNo} {s : State} : runDue s b = true → K s (runExpires b s)
  pauseExpires {b : BogieNo} {s : State} : pauseDue s b = true → K s (pauseExpires b s)
  budgetFall {b : BogieNo} {s : State} : unitDue s b = true → K s (budgetFall b s)
  issueDemand (b : BogieNo) (q : Request) (rewrite : Bool) (of : BurstOf) (a : Address) (s : State) :
    K s (issueDemand b q rewrite of a s)

/-- A write of the shadow tables is accepted in SETUP alone (R166). -/
theorem inactive_of_table_accepted {s : State} {tag : Tag} {off : Nat} {z : AccessSize} {d : Word}
    (accept : decidePageWrite s tag off z d = .accept) (table : 0x40 ≤ off ∧ off < 0x1A0) : s.active = false := by
  by_contra setup
  have active : s.active = true := by simpa using setup
  have region : ¬ (0x20 ≤ off ∧ off < 0x40) := fun k => absurd k.2 (by omega)
  simp only [decidePageWrite, if_neg region, if_pos table, active, if_true] at accept
  split at accept <;> cases accept

section
variable {K : State → State → Prop} (p : CommandParts K) {s t : State}
include p

/-! ### Ends that the treatments share -/

theorem CommandParts.ifDue (due : Bool) (h : due = true → K s t) : K s (if due then t else s) := by
  cases due
  · exact p.refl s
  · exact h rfl

theorem CommandParts.raised (k : NoticeKind) (i : Nat) (h : K s t) : K s (Machine.raise k i t) :=
  p.trans h (p.raise k i t)

theorem CommandParts.answered (tag : Tag) (a : Answer) (data : Option (List Byte)) (h : K s t) :
    K s (answer tag a data t) :=
  p.trans h (p.outer rfl)

theorem CommandParts.taken (x : Access) (k : EntryKind) (h : K s t) : K s (takeNonPosted x k t) :=
  p.trans h (p.outer rfl)

theorem CommandParts.freed (h : K s t) : K s (freePort t) :=
  p.trans h (p.outer rfl)

theorem CommandParts.launched (f : Flight) (h : K s t) : K s (launch f t) :=
  p.trans h (p.outer rfl)

theorem CommandParts.reportWrite (tag : Tag) : K s (reportWrite tag s) :=
  p.outer rfl

theorem CommandParts.reportRead (tag : Tag) (a : Address) (z : AccessSize) : K s (reportRead tag a z s) := by
  obtain ⟨o, h⟩ := reportRead_overlay s tag a z
  rw [h]
  exact p.outer rfl

theorem CommandParts.reportRefusedRead (tag : Tag) (a : Address) (z : AccessSize) :
    K s (reportRefusedRead tag a z s) := by
  obtain ⟨o, h⟩ := reportRefusedRead_overlay s tag a z
  rw [h]
  exact p.outer rfl

/-! ### The treatments of an access -/

variable (s)

theorem CommandParts.refuseWrite (tag : Tag) (i : Nat) : K s (refuseWrite tag i s) :=
  p.answered _ _ _ (p.raised _ _ (p.reportWrite tag))

theorem CommandParts.rejectCommit (tag : Tag) (w : WindowNo) : K s (rejectCommit tag w s) :=
  p.answered _ _ _ (p.raised _ _ (p.reportWrite tag))

theorem CommandParts.passWriteTreatment (x : Access) (d : Word) : K s (passWriteTreatment x d s) := by
  unfold Machine.passWriteTreatment
  split
  · exact p.answered _ _ _ (p.refl s)
  · exact p.taken _ _ (p.reportWrite x.tag)

theorem CommandParts.passReadTreatment (x : Access) : K s (passReadTreatment x s) := by
  unfold Machine.passReadTreatment
  split
  · exact p.answered _ _ _ (p.refl s)
  · exact p.taken _ _ (p.reportRead _ _ _)

theorem CommandParts.pageReadTreatment (x : Access) : K s (pageReadTreatment x s) := by
  unfold Machine.pageReadTreatment
  split
  · exact p.answered _ _ _ (p.refl s)
  · exact p.taken _ _ (p.reportRead _ _ _)

/-- A commit is rejected, told to try again, or accepted and applied by its owner (R16, R17). -/
theorem CommandParts.commitTreatment (x : Access) (d : Word) (q : Place) (w : WindowNo) :
    K s (commitTreatment x d q w s) := by
  have accepted (r : Record) (k : EntryKind) : K s (acceptCommit x q r k s) := p.outer rfl
  unfold Machine.commitTreatment
  cases q with
  | speed n =>
    simp only [speedCommitTreatment]
    split_ifs
    · exact p.rejectCommit s _ _
    · exact p.answered _ _ _ (p.refl s)
    · exact p.answered _ _ _ (p.trans (accepted _ _) (p.applySpeed _ _ _))
  | feedback b =>
    simp only [feedbackCommitTreatment]
    split_ifs
    · exact p.rejectCommit s _ _
    · exact p.answered _ _ _ (p.refl s)
    · exact p.answered _ _ _ (p.trans (accepted _ _) (p.applyFeedback _ _ _))
  | demand b =>
    simp only [demandCommitTreatment]
    split_ifs
    · exact p.rejectCommit s _ _
    · exact p.answered _ _ _ (p.refl s)
    · exact p.trans (p.trans (accepted _ _) (p.applyDemand _ _)) (p.outer rfl)

/-! ### The mode requests and the actions of a page write -/

theorem CommandParts.rejectMode (r : Fin 10) : K s (rejectMode r s) :=
  p.raised _ _ (p.rejectReason r s)

theorem CommandParts.requestRun : K s (requestRun s) := by
  unfold Machine.requestRun
  cases mode : s.control.mode with
  | setup =>
    simp only
    split
    · exact p.runEntry mode
    · exact p.rejectMode s _
  | run => exact p.rejectMode s 9
  | fallback => exact p.rejectMode s 9

theorem CommandParts.requestSetup : K s (requestSetup s) := by
  unfold Machine.requestSetup
  split_ifs with active
  · exact p.setupEntry active
  · exact p.rejectMode s 8
  · exact p.refl s

theorem CommandParts.carriedModeRequest (off : Nat) (z : AccessSize) (d : Word) :
    K s (carriedModeRequest off z d s) := by
  unfold Machine.carriedModeRequest
  split
  · split_ifs
    · exact p.requestRun s
    · exact p.requestSetup s
    · exact p.refl s
  · exact p.refl s

theorem CommandParts.carriedRefill (off : Nat) (z : AccessSize) (d : Word) (b : BogieNo) :
    K s (carriedRefill off z d b s) := by
  unfold Machine.carriedRefill
  split
  · exact p.refill _ _ _
  · exact p.refl s

theorem CommandParts.controlActions (off : Nat) (z : AccessSize) (d : Word) : K s (controlActions off z d s) := by
  unfold Machine.controlActions
  simp only [foldl_upTo4]
  have flags := p.trans (p.clearFlags ((coveredByte off z d 1).getD 0) s) (p.acknowledge (carriedAcknowledge off z d) _)
  have refills := p.trans (p.trans (p.trans (p.trans flags (p.carriedRefill _ off z d 0)) (p.carriedRefill _ off z d 1))
    (p.carriedRefill _ off z d 2)) (p.carriedRefill _ off z d 3)
  exact p.trans refills (p.carriedModeRequest _ _ _ _)

/-- The shadow tables are written in SETUP alone (R166). -/
theorem CommandParts.pageActions (off : Nat) (z : AccessSize) (d : Word)
    (tables : 0x40 ≤ off ∧ off < 0x1A0 → s.active = false) : K s (pageActions off z d s) := by
  unfold Machine.pageActions
  split_ifs with _ table
  · exact p.controlActions s _ _ _
  · exact p.shadowWrite _ (tables table)
  · exact p.refl s

theorem CommandParts.pageWriteTreatment (x : Access) (d : Word) (off : Nat) :
    K s (pageWriteTreatment x d off s) := by
  unfold Machine.pageWriteTreatment
  split
  · exact p.refuseWrite s _ _
  · exact p.answered _ _ _ (p.reportWrite x.tag)
  · rename_i accept
    split
    · exact p.answered _ _ _ (p.refl s)
    · have entry := p.taken x (.pageWrite x.size d) (p.reportWrite (s := s) x.tag)
      exact p.trans entry (p.pageActions _ _ _ _ fun table => inactive_of_table_accepted (s := s) accept table)

/-! ### An access presented -/

theorem CommandParts.presentWrite (tag : Tag) (a : Address) (z : AccessSize) (d : Word) :
    K s (presentWrite tag a z d s) := by
  unfold Machine.presentWrite
  simp only
  split
  · exact p.refl s
  · split
    · exact p.answered _ _ _ (p.refl s)
    · exact p.pageWriteTreatment s _ _ _
    · exact p.refuseWrite s _ _
    · exact p.outer rfl
    · exact p.commitTreatment s _ _ _ _
    · exact p.passWriteTreatment s _ _

theorem CommandParts.presentRead (tag : Tag) (a : Address) (z : AccessSize) : K s (presentRead tag a z s) := by
  unfold Machine.presentRead
  simp only
  split
  · exact p.refl s
  · split
    · exact p.answered _ _ _ (p.refl s)
    · exact p.pageReadTreatment s _
    · exact p.answered _ _ _ (p.raised _ _ (p.reportRefusedRead _ _ _))
    · exact p.passReadTreatment s _

/-! ### The staleness expiry, which can end in FALLBACK -/

theorem CommandParts.loseReference : K s (loseReference s) := by
  unfold Machine.loseReference
  simp only
  split_ifs with _ run
  · exact p.trans (p.raise _ _ _) (p.fallbackEntry _ run)
  · exact p.raise _ _ _
  · exact p.refl s

theorem CommandParts.stalenessExpires {n : AxleNo} (due : stalenessDue s n = true) : K s (stalenessExpires n s) :=
  p.trans (p.staled due) (p.loseReference (Machine.staled n s))

/-! ### The issues and the answers of the D-port -/

theorem CommandParts.finishAccess (a : Answer) (data : Option (List Byte)) (x : Entry) :
    K s (finishAccess a data x s) :=
  p.outer rfl

theorem CommandParts.answerHeadBurst (a : Answer) (x : Entry) : K s (answerHeadBurst a x s) := by
  unfold Machine.answerHeadBurst
  split
  · exact p.outer rfl
  · exact p.outer rfl

theorem CommandParts.memoryLost : K s (memoryLost s) := by
  unfold Machine.memoryLost
  split
  · rename_i run
    exact p.fallbackEntry _ run
  · exact p.refl s

theorem CommandParts.headBurstLost (a : Address) (x : Entry) : K s (headBurstLost a x s) := by
  have ended := p.trans (p.raise .memoryFault (s.shadow.windowNumber a) s) (p.answerHeadBurst _ .err x)
  unfold Machine.headBurstLost
  simp only
  split
  · exact p.freed (p.trans ended (p.memoryLost _))
  · exact p.freed ended

theorem CommandParts.rewriteLost (a : Address) : K s (rewriteLost a s) :=
  p.freed (p.trans (p.raise _ _ s) (p.memoryLost _))

theorem CommandParts.failFlight (f : Flight) : K s (failFlight f s) := by
  unfold Machine.failFlight
  split
  · split
    · exact p.finishAccess s _ _ _
    · exact p.freed (p.refl s)
  · split
    · exact p.outer rfl
    · exact p.rewriteLost s _
  · split
    · split
      · exact p.outer rfl
      · exact p.headBurstLost s _ _
    · exact p.freed (p.refl s)

theorem CommandParts.passFlight (f : Flight) (d : Word) : K s (passFlight f d s) := by
  unfold Machine.passFlight
  split
  · split
    · exact p.finishAccess s _ _ _
    · exact p.freed (p.refl s)
  · split
    · exact p.outer rfl
    · split
      · exact p.freed (p.refl s)
      · split
        · exact p.freed (p.answerHeadBurst s _ _)
        · exact p.freed (p.refl s)

/-- The four issues, decided by the arbiter or not. -/
theorem CommandParts.issues (c : Instr)
    (h : c = .rewriteIssue ∨ c = .demandCommitIssue ∨ c = .recordBurstIssue ∨ c = .passAccessIssue) :
    ∃ t, exec c s = done t ∧ K s t := by
  rcases h with rfl | rfl | rfl | rfl <;> refine ⟨_, rfl, ?_⟩
  · split
    · exact p.issueDemand _ _ _ _ _ s
    · exact p.refl s
  · split
    · split
      · exact p.issueDemand _ _ _ _ _ s
      · exact p.refl s
    · exact p.refl s
  · split
    · split
      · exact p.launched _ (p.outer rfl)
      · exact p.launched _ (p.outer rfl)
      · exact p.refl s
    · exact p.refl s
  · split
    · split
      · exact p.launched _ (p.outer rfl)
      · exact p.refl s
    · exact p.refl s

/-- The two answers of memory and the timeout. -/
theorem CommandParts.portEvents (c : Instr)
    (h : (∃ d began, c = .dPortAck d began) ∨ (∃ began, c = .dPortErr began) ∨ c = .dPortTimeout) :
    ∃ t, exec c s = done t ∧ K s t := by
  rcases h with ⟨d, began, rfl⟩ | ⟨began, rfl⟩ | rfl <;> refine ⟨_, rfl, ?_⟩
  · split
    · exact p.passFlight s _ _
    · exact p.refl s
  · split
    · exact p.failFlight s _
    · exact p.refl s
  · split
    · split
      · exact p.failFlight s _
      · exact p.refl s
    · exact p.refl s

/-! ### Every command -/

theorem CommandParts.command (c : Instr) : ∃ t, exec c s = done t ∧ K s t := by
  cases c
  case powerOn straps => exact ⟨_, rfl, p.powerOn straps s⟩
  case rackReset straps => exact ⟨_, rfl, p.rackReset straps s⟩
  case stagingWrite | speedCommit | feedbackCommit | demandCommit | passWrite | pageWrite | shadowTableWrite
      | routeTableWrite | modeRequestRun | modeRequestSetup | clearPersistent | noticeAcknowledge | sandRefill =>
    exact ⟨_, exec_write s rfl, p.presentWrite s _ _ _ _⟩
  case passRead | speedRecordRead | deviceStatusRead | noticeEntryRead =>
    exact ⟨_, exec_read s rfl, p.presentRead s _ _ _⟩
  case stalenessExpiry n => exact ⟨_, rfl, p.ifDue _ (p.stalenessExpires s)⟩
  case freshnessExpiry b => exact ⟨_, rfl, p.ifDue _ p.freshnessExpires⟩
  case demandTimerExpiry b => exact ⟨_, rfl, p.ifDue _ p.demandTimerExpires⟩
  case releaseWaitExpiry => exact ⟨_, rfl, p.ifDue _ p.releaseWaitExpires⟩
  case settlingTimerExpiry => exact ⟨_, rfl, p.ifDue _ p.settlingExpires⟩
  case windowTimerExpiry => exact ⟨_, rfl, p.ifDue _ p.windowExpires⟩
  case dwellTimerExpiry b => exact ⟨_, rfl, p.ifDue _ p.dwellExpires⟩
  case runTimerExpiry b => exact ⟨_, rfl, p.ifDue _ p.runExpires⟩
  case pauseTimerExpiry b => exact ⟨_, rfl, p.ifDue _ p.pauseExpires⟩
  case budgetUnitFall b => exact ⟨_, rfl, p.ifDue _ p.budgetFall⟩
  case rewriteIssue | demandCommitIssue | recordBurstIssue | passAccessIssue => exact p.issues s _ (by simp)
  case dPortAck | dPortErr | dPortTimeout => exact p.portEvents s _ (by simp)

end

/-- A property that the relation carries over every command is one that every step keeps, if it does not look at the
waiting commands and the races drawn and the passing of time keeps it. -/
theorem CommandParts.step_keeps {K : State → State → Prop} (p : CommandParts K) (Inv : State → Prop)
    (carries : ∀ s t, K s t → Inv s → Inv t) (waiting : ∀ s l, Inv s → Inv (s.withPending l))
    (races : ∀ s k, Inv s → Inv (s.withRaces k)) (time : ∀ s, Inv s → Inv (tick s)) (s t : State) (h : Inv s)
    (e : step s = .next t) : Inv t := by
  refine Machine.step_keeps Inv waiting races time (fun c u v hu hv => ?_) s t h e
  obtain ⟨w, hw, related⟩ := p.command u c
  have same : settle w = settle v := Host.Outcome.next.inj (hw.symm.trans hv)
  exact same ▸ carries u (settle w) (p.trans related (p.outer rfl)) hu

end Sys2Proof.Machine
end

section
/-! PROOFS. 06_rollback_protection_and_the_hill_start_gate.md: the gate and the latch, operation by operation, and what
every command keeps of them (R94 to R97, R99, R102 to R104). -/

namespace Sys2Proof.Machine

/-! ### An evaluation of the gate (R94, R96, R99) -/

section
variable (s : State)

theorem gateMayOpen_iff : gateMayOpen s = true ↔
    (∀ b, s.shadow.counts b = true → (s.standing b).mode = .drive) ∧ s.hold.latch = .clear ∧
      (gradeEffort s = 0 ∨ (gradeEffort s : Int) ≤ achievedSum s) := by
  simp only [gateMayOpen, Bool.and_eq_true, Bool.or_eq_true, allStand_iff, decide_eq_true_eq, beq_iff_eq, and_assoc]

theorem evaluateGate_setup (setup : s.active = false) : evaluateGate s = s := by
  simp only [evaluateGate, setup, Bool.false_and, Bool.false_eq_true, if_false]

theorem evaluateGate_active (active : s.active = true) : evaluateGate s =
    if s.hold.gate = .closed ∧ gateMayOpen s = true then
      s.withHold { s.hold with gate := .opened, releaseWait := none }
    else s := by
  simp only [evaluateGate, active, Bool.true_and, Bool.and_eq_true, decide_eq_true_eq]

end

/-! ### What the two invariants read -/

/-- The latch's other fields fit its state: `LatchSound` of the hold unit alone. -/
def Hold.LatchFits (h : Hold) : Prop :=
  (h.latch = .clear → h.held = BogieSet.none) ∧ (h.latch ≠ .settling → h.settling = none ∧ h.settled = false)

theorem latchSound_iff (s : State) : LatchSound s ↔ s.hold.LatchFits := Iff.rfl

theorem gateSound_closed {s : State} (closed : s.hold.gate = .closed) : GateSound s := fun _ _ _ _ => closed

theorem gateSound_setup {s : State} (setup : s.active = false) : GateSound s :=
  fun active => absurd (active.symm.trans setup) (by decide)

/-- The blocks that the two invariants look at: the hold unit, the mode, the shadow and the standing requests. -/
def State.holdView (s : State) : Hold × DeviceMode × Shadow × Vector Request 4 :=
  (s.hold, s.control.mode, s.shadow, s.allStanding)

theorem standing_eq_allStanding (s : State) (b : BogieNo) : s.standing b = s.allStanding[b] := by
  simp [State.allStanding, State.standing]

/-- A change from the first state to the second keeps the gate and the latch sound. -/
structure HoldKept (s t : State) : Prop where
  gate : GateSound s → GateSound t
  latch : LatchSound s → LatchSound t

theorem HoldKept.refl (s : State) : HoldKept s s := ⟨id, id⟩

theorem HoldKept.trans {s t u : State} (h : HoldKept s t) (k : HoldKept t u) : HoldKept s u :=
  ⟨k.gate ∘ h.gate, k.latch ∘ h.latch⟩

/-- A change of nothing that the invariants look at. -/
theorem HoldKept.of {s t : State} (same : t.holdView = s.holdView) : HoldKept s t := by
  obtain ⟨hold, mode, shadow, standing⟩ : t.hold = s.hold ∧ t.control.mode = s.control.mode ∧ t.shadow = s.shadow ∧
      t.allStanding = s.allStanding := by simpa [State.holdView] using same
  refine ⟨fun h active b counts holds => ?_, fun h => ?_⟩
  · rw [standing_eq_allStanding, standing, ← standing_eq_allStanding] at holds
    rw [State.active, mode] at active
    rw [hold]
    exact h active b (shadow ▸ counts) holds
  · rw [latchSound_iff, hold]
    exact h

/-- A hold unit in another's place, whose gate is closed where the other's was and whose latch fits if the other's
did. -/
theorem HoldKept.ofHold {s : State} {h : Hold} (gate : s.hold.gate = .closed → h.gate = .closed)
    (latch : s.hold.LatchFits → h.LatchFits) : HoldKept s (s.withHold h) :=
  ⟨fun sound active b counts holds => gate (sound active b counts holds), latch⟩

theorem HoldKept.ofReset {s t : State} (reset : t.hold = Hold.reset) : HoldKept s t where
  gate _ := gateSound_closed (by rw [reset]; rfl)
  latch _ := by
    rw [latchSound_iff, reset]
    exact ⟨fun _ => rfl, fun _ => ⟨rfl, rfl⟩⟩

theorem SanderChange.holdKept {s t : State} (h : SanderChange s t) : HoldKept s t := by
  obtain ⟨_, _, _, rfl, -⟩ := h
  exact .of rfl

/-- The sanders' events and the rewrite requests that an operation ends with keep both. -/
theorem HoldKept.reacted {s t : State} (h : HoldKept s t) : HoldKept s (sandersReact t) :=
  h.trans (sandersReact_change t).holdKept

theorem HoldKept.sanded {s t : State} (v : Vector Request 4) (issuing : Option BogieNo) (b : BogieNo)
    (h : HoldKept s t) : HoldKept s (sanderEvent v issuing b t) :=
  h.trans (sanderEvent_change v issuing b t).holdKept

theorem HoldKept.requested {s t : State} (b : BogieNo) (h : HoldKept s t) : HoldKept s (requestRewrite b t) :=
  h.trans (SanderChange.ofRewrite (requestRewrite_change b t)).holdKept

theorem HoldKept.raised {s t : State} (k : NoticeKind) (i : Nat) (h : HoldKept s t) : HoldKept s (raise k i t) :=
  h.trans (.of rfl)

/-- A change in the middle that leaves the hold unit and the demand supervisor. -/
theorem MiddleChange.holdKept {s t : State} (h : MiddleChange s t) (hold : t.hold = s.hold)
    (supervision : t.supervision = s.supervision) : HoldKept s t :=
  .of (by rw [State.holdView, State.allStanding, hold, h.control, h.shadow, supervision]; rfl)

/-! ### The gate and the latch -/

section
variable (s : State)

/-- The gate opens with every standing mode DRIVE, and so with none HOLD (R95, R96). -/
theorem evaluateGate_holdKept : HoldKept s (evaluateGate s) := by
  cases active : s.active with
  | false =>
    rw [evaluateGate_setup s active]
    exact .refl s
  | true =>
    rw [evaluateGate_active s active]
    split
    · rename_i opens
      obtain ⟨drives, -⟩ := (gateMayOpen_iff s).1 opens.2
      exact ⟨fun _ _ b counts holds => absurd ((drives b counts).symm.trans holds) (by decide), id⟩
    · exact .refl s

theorem closeGate_holdKept : HoldKept s (closeGate s) := ⟨fun _ => gateSound_closed rfl, id⟩

theorem updateReleaseWait_holdKept (before : Bool) : HoldKept s (updateReleaseWait before s) := by
  rw [updateReleaseWait_eq]
  exact .ofHold id id

theorem latchRollback_holdKept (n : AxleNo) : HoldKept s (latchRollback n s) := by
  have latched : HoldKept s (s.withHold
      { s.hold with latch := .latched, held := BogieSet.none, settling := none, settled := false }) :=
    .ofHold id fun _ => ⟨fun _ => rfl, fun _ => ⟨rfl, rfl⟩⟩
  exact ((((latched.raised _ _).trans (closeGate_holdKept _)).trans (updateReleaseWait_holdKept _ _)).trans
    (SanderChange.ofRewrite (requestAllRewrites_change _)).holdKept).reacted

/-- The comparison with Vref moves the latch between LATCHED and SETTLING, so that neither is CLEAR (R103). -/
theorem compareLatch_holdKept : HoldKept s (compareLatch s) := by
  unfold compareLatch
  split
  · split
    · split
      · exact .ofHold id fun _ => ⟨fun clear => (by cases clear), fun other => absurd rfl other⟩
      · exact .refl s
    · split
      · exact .ofHold id fun _ => ⟨fun clear => (by cases clear), fun _ => ⟨rfl, rfl⟩⟩
      · exact .refl s
    · exact .refl s
  · exact .refl s

theorem clearLatch_holdKept : HoldKept s (clearLatch s) := by
  have clear : HoldKept s (s.withHold
      { s.hold with latch := .clear, held := BogieSet.none, settling := none, settled := false }) :=
    .ofHold id fun _ => ⟨fun _ => rfl, fun _ => ⟨rfl, rfl⟩⟩
  exact clear.reacted

/-- A bogie is held only while the latch is not CLEAR (R104). -/
theorem holdBogie_holdKept (b : BogieNo) : HoldKept s (holdBogie b s) := by
  unfold holdBogie
  split
  · exact .refl s
  · rename_i set
    have held : HoldKept s (s.withHold { s.hold with held := s.hold.held.set b true }) :=
      .ofHold id fun fits => ⟨fun clear => absurd clear set, fits.2⟩
    simp only
    split
    · exact held.trans (clearLatch_holdKept _)
    · exact held

/-! ### A stored sample -/

theorem evaluateVref_holdKept (n : AxleNo) : HoldKept s (evaluateVref n s) := by
  have moved (c : Nat) : HoldKept s (s.withIntake (s.intake.toward s.shadow.slope c)) := .of rfl
  unfold evaluateVref
  simp only
  split
  · exact ((moved _).trans (compareLatch_holdKept _)).reacted
  · exact (compareLatch_holdKept s).reacted

theorem transition_holdKept (n : AxleNo) : HoldKept s (transition n s) := by
  obtain ⟨_, -, -, -, hold⟩ := transition_axles n s
  exact (transition_middle n s).holdKept hold (transition_supervision n s)

theorem storeSample_holdKept (n : AxleNo) (speed : Nat) (quality : Quality) (sensed : Option Direction) :
    HoldKept s (storeSample n speed quality sensed s) := by
  have stored : HoldKept s (setAxle n (s.axles[n].store speed quality s.timeBase) s) := .of rfl
  have measured (u : State) : HoldKept u (evaluated n speed u) := .of rfl
  have moved : HoldKept s (transition n (sampled n speed quality s)) :=
    ((stored.trans (evaluateVref_holdKept _ n)).trans (measured _)).trans (transition_holdKept _ n)
  rw [storeSample_eq]
  split
  · exact moved.trans (latchRollback_holdKept _ n)
  · exact moved

theorem applySpeed_holdKept (n : AxleNo) (r : Record) : HoldKept s (applySpeed n r s) := by
  have sequenced : HoldKept s (setAxle n { s.axles[n] with lastSequence := some r[14] } s) := .of rfl
  have classed : HoldKept s
      (if sequenceClass s.axles[n].lastSequence r[14] = .gap then
        raise .seqGap n.val (setAxle n { s.axles[n] with lastSequence := some r[14] } s)
      else setAxle n { s.axles[n] with lastSequence := some r[14] } s) := by
    split
    · exact sequenced.raised _ _
    · exact sequenced
  unfold applySpeed
  simp only
  split
  · exact .refl s
  · split
    · exact classed
    · exact classed.trans (storeSample_holdKept _ _ _ _ _)
    · exact classed.trans (storeSample_holdKept _ _ _ _ _)

/-! ### An issue (R131) -/

theorem prepareIssue_holdKept (b : BogieNo) (q : Request) : HoldKept s (prepareIssue b q s) := by
  have turned : HoldKept s (s.withHold { s.hold with direction := q.direction }) := .ofHold id id
  have opened (v : Vector Request 4) (u : State) : HoldKept u (openWindow v q u) := by
    unfold openWindow
    split
    · exact .of rfl
    · exact .refl u
  exact (turned.trans (opened _ _)).trans (sandersEvent_change _ _ _).holdKept

theorem composingState_holdKept (b : BogieNo) (q : Request) (rewrite : Bool) :
    HoldKept s (composingState b q rewrite s) := by
  have left : HoldKept s (leaveRewriteSet b rewrite s) := .of rfl
  unfold composingState
  simp only
  split
  · exact left.trans (prepareIssue_holdKept _ b q)
  · exact left

theorem holdStage_holdKept (b : BogieNo) (q : Request) (before : Bool) : HoldKept s (holdStage b q before s) := by
  have evaluated := evaluateGate_holdKept s
  unfold holdStage
  simp only
  split
  · exact ((evaluated.trans (closeGate_holdKept _)).trans (holdBogie_holdKept _ b)).trans
      (updateReleaseWait_holdKept _ before)
  · exact evaluated.trans (updateReleaseWait_holdKept _ before)

/-- The burst of a HOLD request closes the gate (R95, R97). -/
theorem holdStage_gateSound {b : BogieNo} {q : Request} (before : Bool) (holds : q.mode = .hold) :
    GateSound (holdStage b q before s) := by
  have closed : GateSound (closeGate (evaluateGate s)) := gateSound_closed rfl
  unfold holdStage
  simp only [if_pos holds]
  exact (updateReleaseWait_holdKept _ before).gate ((holdBogie_holdKept _ b).gate closed)

/-- A request that does not ask for HOLD may stand under an open gate. -/
theorem accounted_gateSound {b : BogieNo} {q : Request} {k : Commands} (moves : q.mode ≠ .hold) (sound : GateSound s) :
    GateSound (accounted b q k s) := by
  rw [accounted_eq]
  intro active e counts holds
  refine sound active e counts ?_
  by_cases own : b = e
  · subst own
    have carried : (s.supervision.set b { s.supervision[b] with standing := q })[b].standing = q :=
      congrArg Supervision.standing (set_same _ _ _)
    exact absurd ((congrArg Request.mode carried).symm.trans holds) moves
  · rw [← holds]
    exact (congrArg (fun x : Supervision => x.standing.mode) (set_other _ _ _ _ own)).symm

theorem settleIssue_holdKept (b : BogieNo) (q : Request) (k : Commands) (before : Bool) :
    HoldKept s (settleIssue b q k before s) := by
  cases active : s.active with
  | false =>
    have motors : settleIssue b q k before s = noteMotors b q k s := if_neg (by rw [active]; decide)
    rw [motors]
    exact .of rfl
  | true =>
    rw [settleIssue_active b q k before active]
    have stage := holdStage_holdKept (accounted b q k s) b q before
    refine ⟨fun h => ?_, fun h => stage.latch (by rw [accounted_eq]; exact h)⟩
    by_cases holds : q.mode = .hold
    · exact holdStage_gateSound _ before holds
    · exact stage.gate (accounted_gateSound s holds h)

theorem issueDemand_holdKept (b : BogieNo) (q : Request) (rewrite : Bool) (of : BurstOf) (a : Address) :
    HoldKept s (issueDemand b q rewrite of a s) := by
  rw [issueDemand_eq]
  exact ((composingState_holdKept s b q rewrite).trans (settleIssue_holdKept _ b q _ _)).trans (.of rfl)

/-! ### The other parts of commands -/

theorem applyFeedback_holdKept (b : BogieNo) (r : Record) : HoldKept s (applyFeedback b r s) := by
  by_cases duplicate : s.feedback[b].lastSequence = some r[14]
  · rw [applyFeedback_duplicate duplicate]
    exact .refl s
  · rw [applyFeedback_fresh duplicate]
    have stored : HoldKept s { s with notices := gapNoted b r[14] s, feedback := fedBack b r s } := .of rfl
    exact stored.trans (evaluateGate_holdKept _)

/-- A new timer and lateness leave the standing requests. -/
theorem supervised_holdKept (b : BogieNo) (late : Bool) (timer : Timer) :
    HoldKept s (s.withSupervision (s.supervision.set b { s.supervision[b] with late := late, timer := timer })) := by
  refine .of (congrArg (fun v => (s.hold, s.control.mode, s.shadow, v)) (Vector.ext fun i hi => ?_))
  by_cases own : b.val = i
  · subst own
    simp [State.allStanding]
  · simp [State.allStanding, own]

theorem applyDemand_holdKept (b : BogieNo) : HoldKept s (applyDemand b s) := by
  have recovers (u : State) : HoldKept u (recoverFromLate b u) :=
    .reacted (.of rfl)
  unfold applyDemand
  simp only
  split
  · exact (supervised_holdKept s b _ _).trans (recovers _)
  · exact supervised_holdKept s b _ _

theorem demandTimerExpires_holdKept (b : BogieNo) : HoldKept s (demandTimerExpires b s) :=
  ((supervised_holdKept s b true none).raised _ _).requested b

theorem refill_holdKept (b : BogieNo) (v : Half) : HoldKept s (refill b v s) := by
  unfold refill
  simp only
  split_ifs
  · exact .of rfl
  · exact .of rfl
  · exact .sanded _ _ _ (.of rfl)
  · exact .of rfl

/-- FALLBACK is entered from RUN, in which the gate was sound already (R152). -/
theorem fallbackEntry_holdKept (c : FallbackCause) (run : s.control.mode = .run) : HoldKept s (fallbackEntry c s) := by
  have active : s.active = true := by simp [State.active, run]
  have mode : HoldKept s (s.withControl { s.control with mode := .fallback, fallbackCause := c }) :=
    ⟨fun sound _ => sound active, id⟩
  exact mode.trans (fallbackEntry_change c s).holdKept

theorem staled_holdKept (n : AxleNo) : HoldKept s (staled n s) := by
  have expired : HoldKept s (setAxle n s.axles[n].expire s) := .of rfl
  exact (expired.reacted.raised _ _).requested _

theorem releaseWaitExpires_holdKept : HoldKept s (releaseWaitExpires s) := by
  have stopped : HoldKept s (s.withHold { s.hold with releaseWait := none, blockedReported := true }) := .ofHold id id
  unfold releaseWaitExpires
  simp only
  split
  · exact stopped
  · exact stopped.trans (.of rfl)

/-- The settling timer expires with the latch SETTLING, which alone may have settled (R104). -/
theorem settlingExpires_holdKept (due : settlingDue s = true) : HoldKept s (settlingExpires s) := by
  have settling : s.hold.latch = .settling := by
    simp only [settlingDue, Bool.and_eq_true, decide_eq_true_eq] at due
    exact due.1
  have settled : HoldKept s (s.withHold { s.hold with settling := none, settled := true }) :=
    .ofHold id fun fits => ⟨fits.1, fun other => absurd settling other⟩
  unfold settlingExpires
  simp only
  split
  · exact settled.trans (clearLatch_holdKept _)
  · exact settled

theorem budgetFall_holdKept (b : BogieNo) : HoldKept s (budgetFall b s) := by
  have exhausted {u : State} (h : HoldKept s u) : HoldKept s (sandExhausted b u) := by
    unfold sandExhausted
    simp only
    split
    · exact h.trans (.of rfl)
    · exact h.raised _ _
  unfold budgetFall
  simp only
  split_ifs
  · exact exhausted (.of rfl)
  · exact exhausted (.of rfl)
  · exact .of rfl
  · exact .of rfl

theorem runExpires_holdKept (b : BogieNo) : HoldKept s (runExpires b s) := by
  unfold runExpires
  split
  · exact .of rfl
  · exact .of rfl

end

/-- Every part of a command keeps the gate and the latch sound. -/
theorem holdKept_parts : CommandParts HoldKept where
  refl := .refl
  trans := .trans
  outer h := by
    unfold OuterChange at h
    have same := congrArg State.holdView h
    exact .of same
  powerOn _ _ := .ofReset rfl
  rackReset _ _ := .ofReset rfl
  raise _ _ _ := .of rfl
  applySpeed n r s := applySpeed_holdKept s n r
  applyFeedback b r s := applyFeedback_holdKept s b r
  applyDemand b s := applyDemand_holdKept s b
  clearFlags _ _ := .of rfl
  acknowledge _ _ := .of rfl
  refill b v s := refill_holdKept s b v
  shadowWrite _ setup := ⟨fun _ => gateSound_setup setup, id⟩
  rejectReason _ _ := .of rfl
  runEntry _ := .ofReset rfl
  setupEntry _ := .ofReset rfl
  fallbackEntry c s := fallbackEntry_holdKept s c
  staled {n s} _ := staled_holdKept s n
  freshnessExpires _ := .of rfl
  demandTimerExpires {b s} _ := demandTimerExpires_holdKept s b
  releaseWaitExpires {s} _ := releaseWaitExpires_holdKept s
  settlingExpires {s} due := settlingExpires_holdKept s due
  windowExpires _ := .reacted (.of rfl)
  dwellExpires _ := .sanded _ _ _ (.of rfl)
  runExpires {b s} _ := runExpires_holdKept s b
  pauseExpires _ := .sanded _ _ _ (.of rfl)
  budgetFall {b s} _ := budgetFall_holdKept s b
  issueDemand b q rewrite of a s := issueDemand_holdKept s b q rewrite of a

/-- Settles O59: every part of a command keeps the gate and the latch sound, and so does every step. -/
theorem everyStepKeepsTheGateAndLatchSound : Obligations.EveryStepKeepsTheGateAndLatchSound :=
  ⟨holdKept_parts.step_keeps GateSound (fun _ _ h => h.gate) (fun _ _ h => h) (fun _ _ h => h) fun _ h => h,
    holdKept_parts.step_keeps LatchSound (fun _ _ h => h.latch) (fun _ _ h => h) (fun _ _ h => h) fun _ h => h⟩

end Sys2Proof.Machine
end

section
/-! PROOFS. 06_rollback_protection_and_the_hill_start_gate.md: the grade effort, the achieved sum and the evaluation of
the gate (R84, R94, R96). -/

namespace Sys2Proof.Machine

/-! ### The grade effort (R94) -/

section
variable (s : State)

/-- The grade effort grows from the steepest standing gradient, and there is none on the level or downhill. -/
theorem gradeEffort_eq : gradeEffort s =
    if steepest s.shadow s.allStanding ≤ 0 then 0
    else s.shadow.mass * (steepest s.shadow s.allStanding).toNat * 981 / 10000 := rfl

theorem steepest_standing (g : Nat) : (g : Int) ≤ steepest s.shadow s.allStanding ↔
    ∃ b, s.shadow.counts b = true ∧ (g : Int) ≤ (s.standing b).gradient.toInt := by
  simp only [steepest_ge, standing_eq_allStanding]

/-- With no standing gradient above a level or falling one, the steepest is none either. -/
theorem steepest_level {g : Int} (most : ∀ b, s.shadow.counts b = true → (s.standing b).gradient.toInt ≤ g)
    (level : g ≤ 0) : steepest s.shadow s.allStanding ≤ 0 := by
  by_contra rising
  obtain ⟨b, counts, above⟩ := (steepest_standing s 1).1 (by omega)
  have := most b counts
  omega

theorem steepest_rising {g : Int} (some : ∃ b, s.shadow.counts b = true ∧ (s.standing b).gradient.toInt = g)
    (most : ∀ b, s.shadow.counts b = true → (s.standing b).gradient.toInt ≤ g) (rising : 0 < g) :
    steepest s.shadow s.allStanding = g := by
  obtain ⟨b, counts, own⟩ := some
  have reached := (steepest_standing s g.toNat).2 ⟨b, counts, by omega⟩
  have notAbove : ¬ ((g.toNat + 1 : Nat) : Int) ≤ steepest s.shadow s.allStanding := fun above => by
    obtain ⟨e, counted, steeper⟩ := (steepest_standing s (g.toNat + 1)).1 above
    have := most e counted
    omega
  omega

end

/-! ### The achieved sum (R84, R96) -/

section
variable (s : State)

/-- What bogie b adds to the achieved sum: the efforts of its slots, if it lies within the bogie count. -/
theorem achievedShare_eq (b : BogieNo) :
    (if s.shadow.counts b then achievedIn s b .a + achievedIn s b .b else 0) =
      if b.val < byteAt s.shadow.vehicle 1 then achievedIn s b .a + achievedIn s b .b else 0 := by
  simp only [counts_iff]

theorem achievedSum_eq :
    let share := fun b : BogieNo =>
      if b.val < byteAt s.shadow.vehicle 1 then achievedIn s b .a + achievedIn s b .b else 0
    achievedSum s = share 0 + share 1 + share 2 + share 3 := by
  intro share
  have shares : achievedSum s = (upTo4.map share).sum := by
    unfold achievedSum
    simp only [achievedShare_eq]
    rfl
  rw [shares]
  simp [upTo4, add_assoc]

theorem achievedIn_occupied {b : BogieNo} {slot : Slot} (h : ∃ n, Occupies s.shadow n b.val slot.code) :
    achievedIn s b slot = (counted s b).achieved slot :=
  if_pos ((axleAt_isSome _ b slot).2 h)

theorem achievedIn_empty {b : BogieNo} {slot : Slot} (h : ∀ n, ¬ Occupies s.shadow n b.val slot.code) :
    achievedIn s b slot = 0 :=
  if_neg fun seated => not_exists.2 h ((axleAt_isSome _ b slot).1 seated)

end

/-- Settles O13: the gate's evaluation from its three conditions, the grade effort from the steepest gradient, and the
achieved sum bogie by bogie and slot by slot. -/
theorem theGateOpensWhenTheMotorsHaveTheGrade : Obligations.TheGateOpensWhenTheMotorsHaveTheGrade := by
  refine ⟨fun s active => ⟨?_, evaluateGate_frame s⟩, fun s g some most => ⟨fun level => ?_, fun rising => ?_⟩,
    fun s => ⟨achievedSum_eq s, fun b => ⟨achievedIn_occupied s (slot := .a), achievedIn_occupied s (slot := .b),
      achievedIn_empty s (slot := .a), achievedIn_empty s (slot := .b)⟩⟩⟩
  · simp only [evaluateGate_active s active, gateMayOpen_iff]
    split
    · rfl
    · rfl
  · rw [gradeEffort_eq, if_pos (steepest_level s most level)]
  · rw [gradeEffort_eq, steepest_rising s some most rising, if_neg (by omega)]

end Sys2Proof.Machine
end

section
/-! PROOFS. 06_rollback_protection_and_the_hill_start_gate.md: the expiries of the release wait and of the settling timer
(R99, R104, R110). -/

namespace Sys2Proof.Machine

section
variable {s : State}

theorem exec_releaseWaitExpiry (due : releaseWaitDue s = true) :
    exec .releaseWaitExpiry s = .next (settle (releaseWaitExpires s)) :=
  congrArg done (if_pos due)

theorem exec_settlingTimerExpiry (due : settlingDue s = true) :
    exec .settlingTimerExpiry s = .next (settle (settlingExpires s)) :=
  congrArg done (if_pos due)

theorem settlingDue_of {t0 : Word} (settling : s.hold.latch = .settling) (runs : s.hold.settling = some t0)
    (elapsed : s.shadow.rollbackClearTime ≤ interval s.timeBase t0) : settlingDue s = true := by
  simp only [settlingDue, settling, decide_true, Bool.true_and]
  exact (timerDue_iff _ _ _).2 ⟨t0, runs, elapsed⟩

variable (s)

/-- The wait stops, and START_BLOCKED is raised the first time since the gate was closed (R99). -/
theorem releaseWaitExpires_eq :
    releaseWaitExpires s =
      { s with
        hold := { s.hold with releaseWait := none, blockedReported := true }
        notices :=
          if s.hold.blockedReported = true then s.notices else noted .startBlocked 0 s.timeBase s.notices } := by
  unfold releaseWaitExpires
  cases s.hold.blockedReported <;> rfl

/-- With a bogie not held yet, the expiry sets settled and no more (R104). -/
theorem settlingExpires_waiting (waits : ∃ b, s.shadow.counts b = true ∧ s.hold.held[b] = false) :
    settlingExpires s = s.withHold { s.hold with settling := none, settled := true } := by
  obtain ⟨b, counts, free⟩ := waits
  refine if_neg fun all => ?_
  exact absurd (((allHeld_iff _).1 all b counts).symm.trans free) (by decide)

/-- With every bogie held, the latch enters CLEAR (R104, R110). -/
theorem settlingExpires_clears (all : ∀ b, s.shadow.counts b = true → s.hold.held[b] = true) :
    settlingExpires s = sandersReact (s.withHold
      { s.hold with latch := .clear, held := BogieSet.none, settling := none, settled := false }) :=
  if_pos ((allHeld_iff (s.withHold { s.hold with settling := none, settled := true })).2 all)

theorem settle_hold : (settle s).hold = s.hold := rfl

/-- The sanders' event after a change of the hold unit alone, said on the state before it (R110). -/
theorem settled_reaction_sand (h : Hold) :
    (settle (sandersReact (s.withHold h))).sand =
      (sandersEvent s.allStanding none { s with hold := (settle (sandersReact (s.withHold h))).hold }).sand := by
  rw [settle_hold, sandersReact_hold, settle_sand]
  exact congrArg State.sand (sandersReact_eq rfl)

end

/-- Settles O30: each timer that has elapsed is due, and its expiry is the event's own effect. -/
theorem theHoldTimersExpire : Obligations.TheHoldTimersExpire := by
  refine ⟨fun s t0 runs elapsed => ?_, fun s t0 settling runs elapsed => ?_⟩
  · rw [exec_releaseWaitExpiry ((timerDue_iff _ _ _).2 ⟨t0, runs, elapsed⟩), releaseWaitExpires_eq]
  · rw [exec_settlingTimerExpiry (settlingDue_of settling runs elapsed)]
    refine ⟨fun waits => ?_, fun all => ⟨_, rfl, ?_⟩⟩
    · rw [settlingExpires_waiting s waits]
      rfl
    · rw [settlingExpires_clears s all]
      exact ⟨(sandersReact_change _).sameButSettled, settled_reaction_sand s _⟩

end Sys2Proof.Machine
end

section
/-! PROOFS. 06_rollback_protection_and_the_hill_start_gate.md: a latching, and the latch at an evaluation of Vref (R99,
R102, R103, R110). -/

namespace Sys2Proof.Machine

section
variable (n : AxleNo) (s : State)

/-- The hold unit after a latching: the latch set, the gate closed, and the release wait restarted where every standing
mode is DRIVE (R99, R102). -/
theorem latchRollback_hold (active : s.active = true) :
    (latchRollback n s).hold =
      { s.hold with
        gate := .closed
        releaseWait :=
          if ∀ b, s.shadow.counts b = true → (s.standing b).mode = .drive then some s.timeBase else none
        blockedReported := false
        latch := .latched
        held := BogieSet.none
        settling := none
        settled := false } := by
  obtain ⟨u, latching⟩ : ∃ u, u = closeGate (raise .rollback n.val (s.withHold
      { s.hold with latch := .latched, held := BogieSet.none, settling := none, settled := false })) := ⟨_, rfl⟩
  obtain ⟨uActive, closed, shadow, supervision, timeBase⟩ : u.active = true ∧ u.hold.gate = .closed ∧
      u.shadow = s.shadow ∧ u.supervision = s.supervision ∧ u.timeBase = s.timeBase := by
    rw [latching]
    exact ⟨active, rfl, rfl, rfl, rfl⟩
  have waits : releaseWaitHolds u = true ↔ ∀ b, s.shadow.counts b = true → (s.standing b).mode = .drive := by
    simp only [releaseWaitHolds_iff u uActive, State.standing, supervision, shadow, closed, true_and]
  have hold : (latchRollback n s).hold = (updateReleaseWait false u).hold := by
    rw [latchRollback, sandersReact_hold, requestAllRewrites_hold, latching]
  simp only [hold, updateReleaseWait_eq, hold_withHold, waits, timeBase, Bool.false_eq_true, if_false]
  rw [latching]
  rfl

/-- What an evaluation of Vref makes of the latch, by the Vref that it leaves (R103). -/
theorem evaluateVref_latch : ∃ u : State, (evaluateVref n s).hold = (compareLatch u).hold ∧ u.hold = s.hold ∧
    u.vref = (evaluateVref n s).vref ∧ u.active = s.active ∧ u.shadow = s.shadow ∧ u.timeBase = s.timeBase := by
  obtain ⟨i, h, ⟨_, _, _, change, -⟩, -, latch⟩ := evaluateVref_change n s
  rw [change]
  exact ⟨s.withIntake i, latch, rfl, rfl, rfl, rfl, rfl⟩

end

/-- Settles O52: a latching from its hold unit, its notice, its rewrites and the event it ends with, and an evaluation of
Vref from the latch's comparison and the event it ends with. -/
theorem aLatchingTakesTheTram : Obligations.ALatchingTakesTheTram := by
  refine ⟨fun s n active => ?_, fun s n active => ?_⟩
  · have hold := latchRollback_hold n s active
    have middle := latchRollback_middle n s
    obtain ⟨axles, intake, -, notices⟩ := latchRollback_facts n s
    obtain ⟨feedback, supervision⟩ := latchRollback_blend n s
    have sand := latchRollback_sand n s
    have rewrites := latchRollback_set n s active
    have direction := congrArg Hold.direction hold
    generalize latchRollback n s = t at *
    exact ⟨congrArg Hold.latch hold, congrArg Hold.held hold, congrArg Hold.settling hold, congrArg Hold.settled hold,
      notices, congrArg Hold.gate hold, congrArg Hold.blockedReported hold, sand, rewrites, axles, intake, feedback,
      supervision, middle.control, middle.queue, direction, congrArg Hold.releaseWait hold⟩
  · obtain ⟨u, latch, sameHold, vref, sameActive, shadow, timeBase⟩ := evaluateVref_latch n s
    obtain ⟨settles, stays, relatches, settling, clear⟩ := compareLatch_hold u (sameActive.trans active)
    rw [← latch, sameHold, vref, shadow, timeBase] at settles
    rw [← latch, sameHold, vref, shadow] at stays relatches settling
    rw [← latch, sameHold] at clear
    obtain ⟨-, -, notices, -⟩ := evaluateVref_keeps n s
    have event := evaluateVref_event n s
    generalize evaluateVref n s = t at *
    exact ⟨settles, stays, relatches, settling, clear, notices, congrArg State.sand event,
      congrArg (fun x : State => x.emission.rewriteSet) event⟩

end Sys2Proof.Machine
end

section
/-! PROOFS. 07_sanders_and_the_sand_budget.md: the causes of sand and a sander's transition at an event (R109, R110, R112
to R115, R117, R119). -/

namespace Sys2Proof.Machine

/-! ### The causes (R109) -/

section
variable (s : State) (standing : Vector Request 4) (b : BogieNo)

theorem sandInhibited_iff : sandInhibited s = false ↔
    s.shadow.standstillSpeed ≤ s.vref ∧ s.control.mode ≠ .fallback := by
  simp only [sandInhibited, Bool.or_eq_false_iff, decide_eq_false_iff_not, not_lt, ne_eq]

theorem slipCause_iff : slipCause s standing b = true ↔
    ∃ n : AxleNo, s.axles[n].state = .slip ∧ (s.shadow.axleBogie n).val < s.shadow.bogieCount ∧
      s.shadow.sandsFor b (s.shadow.axleBogie n) = true ∧
      (standing[s.shadow.axleBogie n].mode = .drive ∨ standing[s.shadow.axleBogie n].mode = .brake) := by
  simp only [slipCause, any_upTo8, Shadow.counts, Bool.and_eq_true, Bool.or_eq_true, decide_eq_true_eq, and_assoc]

theorem causeStands_iff : causeStands s standing b = true ↔
    s.shadow.counts b = true ∧
      ((standing[b].driverSand = true ∧ sandInhibited s = false) ∨
        (slipCause s standing b = true ∧ sandInhibited s = false) ∨ s.hold.latch ≠ .clear ∨
        (s.sand.windowOpen = true ∧ s.control.mode ≠ .fallback)) := by
  simp only [causeStands, Bool.and_eq_true, Bool.or_eq_true, Bool.not_eq_true', decide_eq_true_eq, or_assoc]

end

/-! ### A sander's reaction, by the state it is in (R112 to R115, R117) -/

/-- The record of a sander in OFF with its timers stopped. -/
def Sander.stopped (x : Sander) : Sander :=
  { Sander.reset with budget := x.budget, accumulator := x.accumulator }

/-- The record of a sander that enters PAUSE (R114). -/
def Sander.paused (x : Sander) (now : Word) : Sander :=
  { x with state := .pause, runTimer := none, runOverdue := false, dwellTimer := none, pauseTimer := some now }

section
variable {x : Sander} (stands counted : Bool) (latch : Latch) (dwell : Nat) (now : Word)

theorem Sander.react_off (off : x.state = .off) :
    x.react stands counted latch dwell now = if stands = true then (x.enterOn now, true) else (x, false) := by
  simp only [Sander.react, off]

/-- A run that is not overdue, or that the latch prolongs, goes on (R114). -/
theorem Sander.run_goesOn {latch : Latch} (runs : x.runOverdue = false ∨ latch ≠ .clear) :
    ¬ (x.runOverdue = true ∧ latch = .clear) := by
  rintro ⟨overdue, clear⟩
  rcases runs with h | h
  · exact Bool.false_ne_true (h.symm.trans overdue)
  · exact h clear

/-- The latch's return to CLEAR ends an overdue run (R114). -/
theorem Sander.react_overdue (sands : x.state = .on ∨ x.state = .dwell) (overdue : x.runOverdue = true) :
    x.react stands counted .clear dwell now = (x.paused now, false) := by
  rcases sands with h | h <;> simp only [Sander.react, h, overdue, and_self, if_true, Sander.paused]

theorem Sander.react_on (on : x.state = .on) (runs : x.runOverdue = false ∨ latch ≠ .clear) :
    x.react stands counted latch dwell now =
      if stands = true then (x, false)
      else if dwell = 0 then (x.stopped, false)
      else ({ x with state := .dwell, dwellTimer := some now }, false) := by
  simp only [Sander.react, on, Sander.run_goesOn runs, if_false, Sander.stopped, Sander.reset]

theorem Sander.react_dwell (dwells : x.state = .dwell) (runs : x.runOverdue = false ∨ latch ≠ .clear) :
    x.react stands counted latch dwell now =
      if stands = true then ({ x with state := .on, dwellTimer := none }, false) else (x, false) := by
  simp only [Sander.react, dwells, Sander.run_goesOn runs, if_false]

theorem Sander.react_pause (paused : x.state = .pause) :
    x.react stands counted latch dwell now =
      if counted = true ∧ latch ≠ .clear then (x.enterOn now, true) else (x, false) := by
  simp only [Sander.react, paused]

theorem Sander.react_empty (empty : x.state = .empty) : x.react stands counted latch dwell now = (x, false) := by
  simp only [Sander.react, empty]

/-- A reaction keeps the budget and the accumulator, and no sander enters or leaves EMPTY at it (R116 to R118). -/
theorem Sander.react_keeps (x : Sander) :
    (x.react stands counted latch dwell now).1.budget = x.budget ∧
      (x.react stands counted latch dwell now).1.accumulator = x.accumulator ∧
      ((x.react stands counted latch dwell now).1.state = .empty ↔ x.state = .empty) := by
  have goesOn (h : ¬ (x.runOverdue = true ∧ latch = .clear)) : x.runOverdue = false ∨ latch ≠ .clear := by
    simpa only [not_and_or, Bool.not_eq_true] using h
  cases state : x.state with
  | off =>
    rw [Sander.react_off _ _ _ _ _ state]
    split <;> simp [Sander.enterOn, state]
  | on =>
    by_cases ends : x.runOverdue = true ∧ latch = .clear
    · rw [ends.2, Sander.react_overdue _ _ _ _ (.inl state) ends.1]
      simp [Sander.paused]
    · rw [Sander.react_on _ _ _ _ _ state (goesOn ends)]
      split_ifs <;> simp [Sander.stopped, Sander.reset, state]
  | dwell =>
    by_cases ends : x.runOverdue = true ∧ latch = .clear
    · rw [ends.2, Sander.react_overdue _ _ _ _ (.inr state) ends.1]
      simp [Sander.paused]
    · rw [Sander.react_dwell _ _ _ _ _ state (goesOn ends)]
      split <;> simp [state]
  | pause =>
    rw [Sander.react_pause _ _ _ _ _ state]
    split <;> simp [Sander.enterOn, state]
  | empty =>
    rw [Sander.react_empty _ _ _ _ _ state]
    exact ⟨rfl, rfl, iff_of_true state rfl⟩

end

/-! ### The event that the reaction makes (R110, R119) -/

section
variable {s : State} {standing : Vector Request 4} {issuing : Option BogieNo} {b : BogieNo}

/-- A reaction that does not enter ON writes the record alone. -/
theorem sanderEvent_of_reaction (active : s.active = true) {y : Sander}
    (reaction : sanderReaction standing b s = (y, false)) : sanderEvent standing issuing b s = setSander b y s := by
  rw [sanderEvent_eq standing issuing b s active, reaction]
  exact if_neg fun enters => Bool.false_ne_true enters.1

theorem sanderEvent_of_rest (active : s.active = true)
    (reaction : sanderReaction standing b s = (s.sand.sanders[b], false)) : sanderEvent standing issuing b s = s :=
  (sanderEvent_of_reaction active reaction).trans (setSander_self b s)

/-- A reaction that enters ON asks for a rewrite, unless the bogie's own burst is issuing. -/
theorem sanderEvent_of_entry (active : s.active = true) {y : Sander}
    (reaction : sanderReaction standing b s = (y, true)) :
    (sanderEvent standing issuing b s).sand.sanders[b] = y ∧
      (sanderEvent standing issuing b s).emission.rewriteSet =
        if issuing = some b then s.emission.rewriteSet else s.emission.rewriteSet.set b true := by
  refine ⟨(sanderEvent_record standing issuing b s active).trans (congrArg Prod.fst reaction), ?_⟩
  rw [sanderEvent_eq standing issuing b s active, reaction]
  by_cases own : issuing = some b
  · rw [if_neg (fun enters => enters.2 own), if_pos own]
    rfl
  · rw [if_pos ⟨rfl, own⟩, if_neg own, requestRewrite_active b _ (by exact active)]
    rfl

/-- An event keeps every budget and accumulator, and takes no sander into or out of EMPTY (R116 to R118). -/
theorem sanderEvent_keeps (standing : Vector Request 4) (issuing : Option BogieNo) (b e : BogieNo) (s : State) :
    (sanderEvent standing issuing b s).sand.sanders[e].budget = s.sand.sanders[e].budget ∧
      (sanderEvent standing issuing b s).sand.sanders[e].accumulator = s.sand.sanders[e].accumulator ∧
      ((sanderEvent standing issuing b s).sand.sanders[e].state = .empty ↔ s.sand.sanders[e].state = .empty) := by
  cases active : s.active with
  | false =>
    rw [sanderEvent_setup standing issuing b s active]
    exact ⟨rfl, rfl, .rfl⟩
  | true =>
    by_cases own : b = e
    · subst own
      rw [sanderEvent_record standing issuing b s active]
      exact Sander.react_keeps _ _ _ _ _ _
    · rw [sanderEvent_other standing issuing b e s own]
      exact ⟨rfl, rfl, .rfl⟩

/-- A sander in OFF without a cause stays there (R112). -/
theorem sanderEvent_off_rests (active : s.active = true) (off : s.sand.sanders[b].state = .off)
    (idle : causeStands s standing b = false) : sanderEvent standing issuing b s = s := by
  refine sanderEvent_of_rest active ((Sander.react_off _ _ _ _ _ off).trans (if_neg ?_))
  rw [idle]
  decide

/-- A sander in OFF with a cause enters ON (R112, R119). -/
theorem sanderEvent_off_enters (active : s.active = true) (off : s.sand.sanders[b].state = .off)
    (cause : causeStands s standing b = true) :
    (sanderEvent standing issuing b s).sand.sanders[b] = s.sand.sanders[b].enterOn s.timeBase ∧
      (sanderEvent standing issuing b s).emission.rewriteSet =
        if issuing = some b then s.emission.rewriteSet else s.emission.rewriteSet.set b true :=
  sanderEvent_of_entry active ((Sander.react_off _ _ _ _ _ off).trans (if_pos cause))

/-- The latch's return to CLEAR takes an overdue run to PAUSE (R114). -/
theorem sanderEvent_overdue (active : s.active = true)
    (sands : s.sand.sanders[b].state = .on ∨ s.sand.sanders[b].state = .dwell)
    (overdue : s.sand.sanders[b].runOverdue = true) (clear : s.hold.latch = .clear) :
    sanderEvent standing issuing b s = setSander b (s.sand.sanders[b].paused s.timeBase) s := by
  refine sanderEvent_of_reaction active ?_
  rw [sanderReaction, clear]
  exact Sander.react_overdue _ _ _ _ sands overdue

/-- The reaction of a sander in ON whose run goes on (R113). -/
theorem sanderReaction_on (on : s.sand.sanders[b].state = .on)
    (runs : s.sand.sanders[b].runOverdue = false ∨ s.hold.latch ≠ .clear) :
    sanderReaction standing b s =
      if causeStands s standing b = true then (s.sand.sanders[b], false)
      else if s.shadow.sandDwell = 0 then (s.sand.sanders[b].stopped, false)
      else ({ s.sand.sanders[b] with state := .dwell, dwellTimer := some s.timeBase }, false) :=
  Sander.react_on _ _ _ _ _ on runs

theorem sanderReaction_dwell (dwells : s.sand.sanders[b].state = .dwell)
    (runs : s.sand.sanders[b].runOverdue = false ∨ s.hold.latch ≠ .clear) :
    sanderReaction standing b s =
      if causeStands s standing b = true then ({ s.sand.sanders[b] with state := .on, dwellTimer := none }, false)
      else (s.sand.sanders[b], false) :=
  Sander.react_dwell _ _ _ _ _ dwells runs

/-- In ON or DWELL, a run that goes on asks for no rewrite (R113, R119). -/
theorem sanderEvent_sanding_emission (active : s.active = true)
    (sands : s.sand.sanders[b].state = .on ∨ s.sand.sanders[b].state = .dwell)
    (runs : s.sand.sanders[b].runOverdue = false ∨ s.hold.latch ≠ .clear) :
    (sanderEvent standing issuing b s).emission = s.emission := by
  obtain ⟨y, reaction⟩ : ∃ y, sanderReaction standing b s = (y, false) := by
    rcases sands with on | dwells
    · rw [sanderReaction_on on runs]
      split_ifs <;> exact ⟨_, rfl⟩
    · rw [sanderReaction_dwell dwells runs]
      split_ifs <;> exact ⟨_, rfl⟩
  rw [sanderEvent_of_reaction active reaction]
  rfl

end

/-- Settles O34: the table of causes, the transition from each sander state, and the order of the bogies. -/
theorem aSanderMakesItsTransition : Obligations.ASanderMakesItsTransition := by
  refine ⟨fun s standing b => ?_, fun s standing issuing b active => ?_, fun s standing issuing => rfl⟩
  · simp only [causeStands_iff, slipCause_iff, sandInhibited_iff, Shadow.counts, decide_eq_true_eq]
  · intro x t
    have record {y : Sander} (event : t = setSander b y s) : t.sand.sanders[b] = y := by
      rw [event]
      exact setSander_same b y s
    refine ⟨(sanderEvent_change standing issuing b s).sameBut,
      fun e other => sanderEvent_other standing issuing b e s other.symm,
      sanderEvent_off_rests active, sanderEvent_off_enters active, fun sands overdue clear => ?_,
      fun sands runs => ⟨sanderEvent_sanding_emission active sands runs, ?_, ?_, ?_, ?_⟩, ?_, ?_, ?_⟩
    · have event : t = setSander b (x.paused s.timeBase) s := sanderEvent_overdue active sands overdue clear
      exact ⟨record event, by rw [event]; rfl⟩
    · intro on cause
      exact sanderEvent_of_rest active ((sanderReaction_on on runs).trans (if_pos cause))
    · intro on idle
      have lost := (sanderReaction_on (standing := standing) on runs).trans (if_neg (by rw [idle]; decide))
      refine ⟨fun dwell => ?_, fun noDwell => ?_⟩
      · exact record (sanderEvent_of_reaction active (lost.trans (if_neg dwell)))
      · exact record (sanderEvent_of_reaction active (lost.trans (if_pos noDwell)))
    · intro dwells cause
      exact record (sanderEvent_of_reaction active ((sanderReaction_dwell dwells runs).trans (if_pos cause)))
    · intro dwells idle
      exact sanderEvent_of_rest active
        ((sanderReaction_dwell dwells runs).trans (if_neg (by rw [idle]; decide)))
    · intro paused stays
      refine sanderEvent_of_rest active ((Sander.react_pause _ _ _ _ _ paused).trans (if_neg ?_))
      rintro ⟨counts, set⟩
      rcases stays with clear | beyond
      · exact set clear
      · exact absurd (counts.symm.trans beyond) (by decide)
    · intro paused set counts
      exact sanderEvent_of_entry active ((Sander.react_pause _ _ _ _ _ paused).trans (if_pos ⟨counts, set⟩))
    · intro empty
      exact sanderEvent_of_rest active (Sander.react_empty _ _ _ _ _ empty)

end Sys2Proof.Machine
end

section
/-! PROOFS. 07_sanders_and_the_sand_budget.md: the expiries of the window timer and of a sander's timers (R110, R111, R113
to R115, R119). -/

namespace Sys2Proof.Machine

section
variable {s : State} {b : BogieNo}

theorem exec_windowTimerExpiry (due : windowDue s = true) :
    exec .windowTimerExpiry s = .next (settle (windowExpires s)) :=
  congrArg done (if_pos due)

theorem exec_dwellTimerExpiry (due : dwellDue s b = true) :
    exec (.dwellTimerExpiry b) s = .next (settle (dwellExpires b s)) :=
  congrArg done (if_pos due)

theorem exec_pauseTimerExpiry (due : pauseDue s b = true) :
    exec (.pauseTimerExpiry b) s = .next (settle (pauseExpires b s)) :=
  congrArg done (if_pos due)

theorem exec_runTimerExpiry (due : runDue s b = true) :
    exec (.runTimerExpiry b) s = .next (settle (runExpires b s)) :=
  congrArg done (if_pos due)

end

/-! ### The window (R111, R113) -/

/-- A sander in ON with no cause left enters DWELL, or OFF with a sand dwell of 0 (R113). -/
theorem sandersEvent_lostCause {s : State} {standing : Vector Request 4} {b : BogieNo} (issuing : Option BogieNo)
    (idle : causeStands s standing b = false) (active : s.active = true) (on : s.sand.sanders[b].state = .on)
    (runs : s.sand.sanders[b].runOverdue = false) :
    (sandersEvent standing issuing s).sand.sanders[b] =
      if s.shadow.sandDwell = 0 then s.sand.sanders[b].stopped
      else { s.sand.sanders[b] with state := .dwell, dwellTimer := some s.timeBase } := by
  rw [(sandersEvent_bogie standing issuing b s active).1, sanderReaction_on on (.inl runs), idle,
    if_neg Bool.false_ne_true]
  split <;> rfl

/-- A window expiry is the closing of the window and the event that finds it closed (R110, R111). -/
theorem windowExpires_eq (s : State) :
    windowExpires s =
      sandersEvent s.allStanding none { s with sand := { s.sand with windowOpen := false, windowTimer := none } } :=
  sandersReact_eq rfl

/-- Settles O31: the expiry's event finds the window closed, and so the sanders whose last cause it was. -/
theorem aWindowExpiryClosesTheWindow : Obligations.AWindowExpiryClosesTheWindow := by
  intro s t0 runs elapsed
  have taken := exec_windowTimerExpiry ((timerDue_iff _ _ _).2 ⟨t0, runs, elapsed⟩)
  rw [windowExpires_eq] at taken
  refine ⟨_, taken, (sandersEvent_change _ _ _).sameButSettled, settle_sand _, fun b active on inTime idle => ?_⟩
  have record := sandersEvent_lostCause none idle active on inTime
  rw [settle_sand, record]
  exact ⟨fun dwell => if_neg dwell, fun noDwell => congrArg Sander.state (if_pos noDwell)⟩

/-! ### A sander's own timers (R113 to R115) -/

section
variable (s : State) (b : BogieNo)

theorem sanderEnterOff_eq : sanderEnterOff b s = setSander b s.sand.sanders[b].stopped s := rfl

/-- The dwell expiry is OFF, and what a cause then makes of it (R113; log 19). -/
theorem dwellExpires_eq :
    dwellExpires b s = sanderEvent s.allStanding none b (setSander b s.sand.sanders[b].stopped s) := rfl

/-- The pause expiry is OFF, and what a cause then makes of it (R115). -/
theorem pauseExpires_eq :
    pauseExpires b s = sanderEvent s.allStanding none b (setSander b s.sand.sanders[b].stopped s) := rfl

end

section
variable {s : State} {standing : Vector Request 4} {b : BogieNo} {y : Sander}

/-- A sander put to OFF stays there without a cause (R112). -/
theorem sanderEvent_putOff_rests (active : s.active = true) (off : y.state = .off)
    (idle : causeStands s standing b = false) :
    sanderEvent standing none b (setSander b y s) = setSander b y s :=
  sanderEvent_off_rests active ((congrArg Sander.state (setSander_same b y s)).trans off)
    (((setSander_change b y s).causes standing b).trans idle)

/-- A sander put to OFF goes straight on to ON with a cause, and asks for a rewrite (R112, R119). -/
theorem sanderEvent_putOff_enters (active : s.active = true) (off : y.state = .off)
    (cause : causeStands s standing b = true) :
    (sanderEvent standing none b (setSander b y s)).sand.sanders[b] = y.enterOn s.timeBase ∧
      (sanderEvent standing none b (setSander b y s)).emission.rewriteSet = s.emission.rewriteSet.set b true := by
  have own := setSander_same b y s
  obtain ⟨record, request⟩ := sanderEvent_off_enters (issuing := none) (s := setSander b y s) active
    ((congrArg Sander.state own).trans off) (((setSander_change b y s).causes standing b).trans cause)
  rw [own] at record
  exact ⟨record, request⟩

end

/-- What the run timer's expiry leaves of a sander in ON or DWELL (R114). -/
theorem runExpires_eq (b : BogieNo) (s : State) :
    runExpires b s =
      setSander b
        (if s.hold.latch = .clear then s.sand.sanders[b].paused s.timeBase
        else { s.sand.sanders[b] with runTimer := none, runOverdue := true }) s := by
  unfold runExpires
  split <;> rfl

/-- Settles O32: the dwell and the pause expiry put the sander to OFF, which a cause takes on to ON, and the run timer's
expiry writes the record alone. -/
theorem theSanderTimersExpire : Obligations.TheSanderTimersExpire := by
  refine ⟨fun s b t0 c active expiry => ?_, fun s b t0 sands runs elapsed => ?_⟩
  · have taken : exec c s =
        .next (settle (sanderEvent s.allStanding none b (setSander b s.sand.sanders[b].stopped s))) := by
      rcases expiry with ⟨rfl, dwells, runs, elapsed⟩ | ⟨rfl, pauses, runs, elapsed⟩
      · rw [exec_dwellTimerExpiry ((dwellDue_iff s b).2 ⟨dwells, t0, runs, elapsed⟩), dwellExpires_eq]
      · rw [exec_pauseTimerExpiry ((pauseDue_iff s b).2 ⟨pauses, t0, runs, elapsed⟩), pauseExpires_eq]
    refine ⟨_, taken, ((setSander_change _ _ _).trans (sanderEvent_change _ _ _ _)).sameButSettled,
      fun e other => ?_, fun idle => ?_, fun cause => ?_⟩
    · exact (sanderEvent_other _ _ b e _ other.symm).trans (setSander_other b e _ s other.symm)
    · rw [sanderEvent_putOff_rests active rfl idle]
      exact ⟨setSander_same _ _ _, rfl⟩
    · exact sanderEvent_putOff_enters active rfl cause
  · rw [exec_runTimerExpiry ((runDue_iff s b).2 ⟨sands, t0, runs, elapsed⟩), runExpires_eq]
    rfl

end Sys2Proof.Machine
end

section
/-! PROOFS. 07_sanders_and_the_sand_budget.md: the fall of a unit of the budget (R116, R117). -/

namespace Sys2Proof.Machine

/-- The record of a sander in EMPTY with its timers stopped (R117). -/
def Sander.emptied (x : Sander) : Sander :=
  { x.stopped with state := .empty }

/-- The record of a sander whose budget has fallen by a unit (R116; log 10). -/
def Sander.fallen (x : Sander) : Sander :=
  { x with budget := x.budget - 1, accumulator := x.accumulator - 10000 }

/-- SAND_LOW at a fall that crosses the threshold (R116). -/
def lowNoted (b : BogieNo) (s : State) : Vector Notice 15 :=
  if s.sand.sanders[b].budget.toNat = s.shadow.sandLow b then noted .sandLow b.val s.timeBase s.notices else s.notices

section
variable (b : BogieNo) (s : State)

theorem exec_budgetUnitFall (due : unitDue s b = true) :
    exec (.budgetUnitFall b) s = .next (settle (budgetFall b s)) :=
  congrArg done (if_pos due)

theorem sanderEnterEmpty_eq : sanderEnterEmpty b s = setSander b s.sand.sanders[b].emptied s := rfl

theorem setSander_setSander (x y : Sander) : setSander b y (setSander b x s) = setSander b y s := by
  simp [setSander_eq]

/-- A budget that has fallen to 0 raises SAND_EMPTY, and outside SETUP the sander enters EMPTY (R116, R117). -/
theorem sandExhausted_eq :
    sandExhausted b s =
      { setSander b (if s.active = true then s.sand.sanders[b].emptied else s.sand.sanders[b]) s with
        notices := noted .sandEmpty b.val s.timeBase s.notices } := by
  unfold sandExhausted
  simp only
  split
  · rename_i active
    have active : s.active = true := active
    rw [if_pos active, sanderEnterEmpty_eq]
    rfl
  · rename_i setup
    have setup : ¬ s.active = true := setup
    have same : setSander b s.sand.sanders[b] s = s := setSander_self b s
    rw [if_neg setup, same]
    rfl

end

section
variable {b : BogieNo} {s : State}

/-- A budget of 0 has no unit to lose (log 10). -/
theorem budgetFall_none (spent : s.sand.sanders[b].budget = 0) :
    budgetFall b s =
      setSander b { s.sand.sanders[b] with accumulator := s.sand.sanders[b].accumulator - 10000 } s := by
  have zero : s.sand.sanders[b].budget.toNat = 0 := by rw [spent]; rfl
  simp only [budgetFall, zero, Nat.zero_sub, ne_eq, not_true_eq_false, and_false, if_false, zero_ne_one]
  rw [spent]
  rfl

/-- The fall of a unit that there is: the record a unit lower, SAND_LOW at a crossing, and the end of the budget if the
unit was the last (R116, R117). -/
theorem budgetFall_eq (left : s.sand.sanders[b].budget ≠ 0) :
    budgetFall b s =
      if s.sand.sanders[b].budget = 1 then
        sandExhausted b { setSander b s.sand.sanders[b].fallen s with notices := lowNoted b s }
      else { setSander b s.sand.sanders[b].fallen s with notices := lowNoted b s } := by
  have positive : s.sand.sanders[b].budget.toNat ≠ 0 := fun h => left (BitVec.eq_of_toNat_eq h)
  have lower : BitVec.ofNat 16 (s.sand.sanders[b].budget.toNat - 1) = s.sand.sanders[b].budget - 1 := by
    bv_omega
  have last : s.sand.sanders[b].budget.toNat = 1 ↔ s.sand.sanders[b].budget = 1 :=
    (BitVec.toNat_inj (y := 1#16))
  have crosses : (s.shadow.sandLow b ≤ s.sand.sanders[b].budget.toNat ∧
      s.sand.sanders[b].budget.toNat - 1 < s.shadow.sandLow b ∧ s.sand.sanders[b].budget.toNat ≠ 0) ↔
      s.sand.sanders[b].budget.toNat = s.shadow.sandLow b := by omega
  have low : (if s.sand.sanders[b].budget.toNat = s.shadow.sandLow b then
        raise .sandLow b.val (setSander b s.sand.sanders[b].fallen s)
      else setSander b s.sand.sanders[b].fallen s) =
      { setSander b s.sand.sanders[b].fallen s with notices := lowNoted b s } := by
    unfold lowNoted
    split <;> rfl
  rw [← low]
  simp only [budgetFall, lower, last, crosses]
  rfl

end

/-- What the fall of a unit that there is leaves: bogie b's record, and the notices (R116, R117). -/
theorem budgetFall_blocks {b : BogieNo} {s : State} (left : s.sand.sanders[b].budget ≠ 0) :
    budgetFall b s =
      { setSander b
          (if s.sand.sanders[b].budget = 1 ∧ s.active = true then s.sand.sanders[b].fallen.emptied
          else s.sand.sanders[b].fallen) s with
        notices :=
          if s.sand.sanders[b].budget = 1 then noted .sandEmpty b.val s.timeBase (lowNoted b s)
          else lowNoted b s } := by
  rw [budgetFall_eq left]
  by_cases last : s.sand.sanders[b].budget = 1
  · have own : ({ setSander b s.sand.sanders[b].fallen s with notices := lowNoted b s } : State).sand.sanders[b] =
        s.sand.sanders[b].fallen := setSander_same b _ s
    simp only [last, if_true, true_and, sandExhausted_eq, own]
    simp only [setSander_eq, Vector.set_set]
    rfl
  · simp only [last, if_false, false_and]

/-- Settles O33: the record and the notices after the fall, the last unit apart from the others. -/
theorem aUnitFallLowersTheBudget : Obligations.AUnitFallLowersTheBudget := by
  intro s b used left
  refine ⟨_, exec_budgetUnitFall b s ((unitDue_iff s b).2 used), ?_⟩
  rw [budgetFall_blocks left]
  have own (y : Sander) (n : Vector Notice 15) :
      (settle { setSander b y s with notices := n }).sand.sanders[b] = y := setSander_same b y s
  have frame (y : Sander) (n : Vector Notice 15) :
      SameButSanders { s with notices := n } (settle { setSander b y s with notices := n }) := by
    simp [SameButSanders, settle_eq, setSander_eq]
  refine ⟨?_, ?_, fun e other => setSander_other b e _ s other.symm, fun stays => ?_, fun last active => ?_, rfl,
    frame _ _, rfl⟩
  · rw [own]
    split <;> rfl
  · rw [own]
    split <;> rfl
  · have goesOn : ¬ (s.sand.sanders[b].budget = 1 ∧ s.active = true) := by
      rintro ⟨last, active⟩
      rcases stays with more | setup
      · exact more last
      · exact Bool.false_ne_true (setup.symm.trans active)
    rw [own, if_neg goesOn]
    exact ⟨rfl, rfl⟩
  · rw [own, if_pos ⟨last, active⟩]
    exact ⟨rfl, rfl, rfl, rfl, rfl⟩

end Sys2Proof.Machine
end

section
/-! PROOFS. 07_sanders_and_the_sand_budget.md: a refill, and the control record write that carries it (R118, R119,
R168). -/

namespace Sys2Proof.Machine

/-- The record with a budget set (R118). -/
def Sander.refilled (x : Sander) (v : Half) : Sander :=
  { x with budget := v }

/-! ### A refill, by the mode, the value and the sander's state (R118) -/

section
variable {b : BogieNo} {s : State} {v : Half}

theorem refill_setup (setup : s.active = false) :
    refill b v s = setSander b (s.sand.sanders[b].refilled v) s := by
  simp only [refill, setup, Bool.not_false, if_true]
  rfl

section
variable (active : s.active = true)
include active

/-- Outside SETUP the value decides, and then the sander's state. -/
theorem refill_active :
    refill b v s =
      if v = 0 then sanderEnterEmpty b (setSander b (s.sand.sanders[b].refilled v) s)
      else if s.sand.sanders[b].state = .empty then
        sanderEvent s.allStanding none b (sanderEnterOff b (setSander b (s.sand.sanders[b].refilled v) s))
      else setSander b (s.sand.sanders[b].refilled v) s := by
  simp only [refill, active, Bool.not_true, Bool.false_eq_true, if_false]
  rfl

theorem refill_zero (zero : v = 0) :
    refill b v s = setSander b (s.sand.sanders[b].refilled v).emptied s := by
  have own := setSander_same b (s.sand.sanders[b].refilled v) s
  rw [refill_active active, if_pos zero, sanderEnterEmpty_eq, own, setSander_setSander]

/-- A refill above 0 takes a sander out of EMPTY, and a cause takes it straight on to ON. -/
theorem refill_emptied (above : v ≠ 0) (empty : s.sand.sanders[b].state = .empty) :
    refill b v s =
      sanderEvent s.allStanding none b (setSander b (s.sand.sanders[b].refilled v).stopped s) := by
  have own := setSander_same b (s.sand.sanders[b].refilled v) s
  rw [refill_active active, if_neg above, if_pos empty, sanderEnterOff_eq, own, setSander_setSander]

theorem refill_other (above : v ≠ 0) (other : s.sand.sanders[b].state ≠ .empty) :
    refill b v s = setSander b (s.sand.sanders[b].refilled v) s := by
  rw [refill_active active, if_neg above, if_neg other]

end

variable (b s v)

/-- A refill writes the sanders and, where its sander enters ON, the rewrite set. -/
theorem refill_change : SanderChange s (refill b v s) := by
  cases active : s.active with
  | false =>
    rw [refill_setup active]
    exact setSander_change _ _ _
  | true =>
    rw [refill_active active]
    have written := setSander_change b (s.sand.sanders[b].refilled v) s
    split_ifs
    · exact written.trans (setSander_change _ _ _)
    · exact (written.trans (setSander_change _ _ _)).trans (sanderEvent_change _ _ _ _)
    · exact written

theorem refill_otherBogie {e : BogieNo} (other : b ≠ e) : (refill b v s).sand.sanders[e] = s.sand.sanders[e] := by
  have set (y : Sander) : (setSander b y s).sand.sanders[e] = s.sand.sanders[e] := setSander_other b e y s other
  cases active : s.active with
  | false => rw [refill_setup active, set]
  | true =>
    by_cases zero : v = 0
    · rw [refill_zero active zero, set]
    · by_cases empty : s.sand.sanders[b].state = .empty
      · rw [refill_emptied active zero empty, sanderEvent_other _ _ b e _ other, set]
      · rw [refill_other active zero empty, set]

theorem refill_keeps :
    (refill b v s).sand.sanders[b].budget = v ∧
      (refill b v s).sand.sanders[b].accumulator = s.sand.sanders[b].accumulator := by
  have own (y : Sander) : (setSander b y s).sand.sanders[b] = y := setSander_same b y s
  cases active : s.active with
  | false =>
    rw [refill_setup active, own]
    exact ⟨rfl, rfl⟩
  | true =>
    by_cases zero : v = 0
    · rw [refill_zero active zero, own]
      exact ⟨rfl, rfl⟩
    · by_cases empty : s.sand.sanders[b].state = .empty
      · obtain ⟨budget, accumulator, -⟩ := sanderEvent_keeps s.allStanding none b b
          (setSander b (s.sand.sanders[b].refilled v).stopped s)
        rw [own] at budget accumulator
        rw [refill_emptied active zero empty]
        exact ⟨budget, accumulator⟩
      · rw [refill_other active zero empty, own]
        exact ⟨rfl, rfl⟩

end

/-- The table of R118: what a refill of `v` makes of a sander's record, in a mode and with a cause or without. -/
structure Sander.RefilledTo (x y : Sander) (v : Half) (active stands : Bool) (now : Word) : Prop where
  budget : y.budget = v
  accumulator : y.accumulator = x.accumulator
  setup : active = false → y = x.refilled v
  zero : active = true → v = 0 → y = (x.refilled v).emptied
  other : active = true → v ≠ 0 → x.state ≠ .empty → y = x.refilled v
  rests : active = true → v ≠ 0 → x.state = .empty → stands = false → y.state = .off
  enters : active = true → v ≠ 0 → x.state = .empty → stands = true → y.state = .on ∧ y.runTimer = some now

theorem refill_table (b : BogieNo) (s : State) (v : Half) :
    s.sand.sanders[b].RefilledTo (refill b v s).sand.sanders[b] v s.active (causeStands s s.allStanding b)
      s.timeBase := by
  obtain ⟨budget, accumulator⟩ := refill_keeps b s v
  have written {y : Sander} (h : refill b v s = setSander b y s) : (refill b v s).sand.sanders[b] = y := by
    rw [h]
    exact setSander_same b y s
  refine ⟨budget, accumulator, fun setup => written (refill_setup setup),
    fun active zero => written (refill_zero active zero),
    fun active above other => written (refill_other active above other),
    fun active above empty idle => ?_, fun active above empty cause => ?_⟩
  · have rests := refill_emptied active above empty
    rw [sanderEvent_putOff_rests active rfl idle] at rests
    exact congrArg Sander.state (written rests)
  · obtain ⟨record, -⟩ := sanderEvent_putOff_enters (y := (s.sand.sanders[b].refilled v).stopped) active rfl cause
    rw [refill_emptied active above empty]
    exact ⟨congrArg Sander.state record, congrArg Sander.runTimer record⟩

/-- A refill that takes a sander from EMPTY to ON asks for a rewrite (R119). -/
theorem refill_requests {b : BogieNo} {s : State} {v : Half} (active : s.active = true) (above : v ≠ 0)
    (empty : s.sand.sanders[b].state = .empty) (cause : causeStands s s.allStanding b = true) :
    (refill b v s).emission.rewriteSet[b] = true := by
  obtain ⟨-, request⟩ := sanderEvent_putOff_enters (y := (s.sand.sanders[b].refilled v).stopped) active rfl cause
  rw [refill_emptied active above empty, request]
  exact (mem_set _ _ _).2 (.inl rfl)

/-! ### The refills that a control record write carries (R168) -/

theorem le16_extract (d : Word) (k : Nat) : le16 (byteOf d k) (byteOf d (k + 1)) = d.extractLsb' (8 * k) 16 :=
  BitVec.extractLsb'_append_extractLsb'_eq_extractLsb' (by omega)

/-- A write that covers bogie b's field and `k` bytes before it refills b from byte `k` of its data. -/
theorem carriedRefill_covered {off k : Nat} {z : AccessSize} {b : BogieNo} (d : Word) (s : State)
    (field : off + k = 0x24 + 2 * b.val) (covered : k + 2 ≤ z.bytes) :
    carriedRefill off z d b s = refill b (d.extractLsb' (8 * k) 16) s := by
  have low : coveredByte off z d (4 + 2 * b.val) = some (byteOf d k) := by
    rw [coveredByte_some d (by omega), show 0x20 + (4 + 2 * b.val) - off = k by omega]
  have high : coveredByte off z d (5 + 2 * b.val) = some (byteOf d (k + 1)) := by
    rw [coveredByte_some d (by omega), show 0x20 + (5 + 2 * b.val) - off = k + 1 by omega]
  simp only [carriedRefill, low, high, le16_extract]

section
variable (off : Nat) (z : AccessSize) (d : Word)

theorem carriedRefill_change (b : BogieNo) (s : State) : SanderChange s (carriedRefill off z d b s) := by
  unfold carriedRefill
  split
  · exact refill_change _ _ _
  · exact .refl s

theorem carriedRefill_otherBogie {b e : BogieNo} (s : State) (other : b ≠ e) :
    (carriedRefill off z d b s).sand.sanders[e] = s.sand.sanders[e] := by
  unfold carriedRefill
  split
  · exact refill_otherBogie _ _ _ other
  · rfl

/-- The refills that a write carries for the bogies of a list, in turn. -/
def carriedRefills (l : List BogieNo) (s : State) : State :=
  l.foldl (fun t b => carriedRefill off z d b t) s

theorem carriedRefills_change (l : List BogieNo) (s : State) : SanderChange s (carriedRefills off z d l s) := by
  induction l generalizing s with
  | nil => exact .refl s
  | cons e l ih => exact (carriedRefill_change off z d e s).trans (ih _)

theorem carriedRefills_outside {b : BogieNo} {l : List BogieNo} (s : State) (outside : b ∉ l) :
    (carriedRefills off z d l s).sand.sanders[b] = s.sand.sanders[b] := by
  induction l generalizing s with
  | nil => rfl
  | cons e l ih =>
    rw [List.mem_cons, not_or] at outside
    exact (ih _ outside.2).trans (carriedRefill_otherBogie off z d s (Ne.symm outside.1))

/-- A bogie of the list is refilled in a state that differs from the first in the other sanders, and the refills after
it leave its record. -/
theorem carriedRefills_member {b : BogieNo} {l : List BogieNo} (s : State) (once : l.Nodup) (member : b ∈ l) :
    ∃ u, SanderChange s u ∧ u.sand.sanders[b] = s.sand.sanders[b] ∧
      SanderChange (carriedRefill off z d b u) (carriedRefills off z d l s) ∧
      (carriedRefills off z d l s).sand.sanders[b] = (carriedRefill off z d b u).sand.sanders[b] := by
  induction l generalizing s with
  | nil => cases member
  | cons e l ih =>
    obtain ⟨fresh, once⟩ := List.nodup_cons.1 once
    by_cases here : b = e
    · subst here
      exact ⟨s, .refl s, rfl, carriedRefills_change off z d l _, carriedRefills_outside off z d _ fresh⟩
    · obtain ⟨u, before, record, after, final⟩ := ih (carriedRefill off z d e s) once
        ((List.mem_cons.1 member).resolve_left here)
      exact ⟨u, (carriedRefill_change off z d e s).trans before,
        record.trans (carriedRefill_otherBogie off z d s (Ne.symm here)), after, final⟩

end

/-! ### The write (R165, R167, R168) -/

/-- A halfword or word write to the refill fields is accepted (R167). -/
theorem decidePageWrite_refills {off : Nat} {z : AccessSize} (d : Word) (s : State) (low : 0x24 ≤ off)
    (high : off < 0x2C) (size : z ≠ .byte) : decidePageWrite s 0 off z d = .accept := by
  have region : 0x20 ≤ off ∧ off < 0x40 := by omega
  have beyond : off ≠ 0x20 := by omega
  simp only [decidePageWrite, controlWriteRefused, ne_eq, not_true_eq_false, if_false, region, and_self, if_true,
    beyond, size, decide_false, Bool.false_and, Bool.or_self, Bool.false_eq_true]

/-- Such a write takes its entry, and then refills (R118, R165). -/
theorem presentWrite_refills {s : State} {a : Address} {z : AccessSize} {off : Nat} (d : Word) (h : OnPage s a z off)
    (low : 0x24 ≤ off) (high : off < 0x2C) (size : z ≠ .byte) (room : HasRoom s) :
    presentWrite 0 a z d s = carriedRefills off z d upTo4 (pageWriteTaken s a z d) :=
  calc presentWrite 0 a z d s
      = pageActions off z d (pageWriteTaken s a z d) := by
        rw [presentWrite_page 0 d h, pageWriteTreatment_accept (decidePageWrite_refills d s low high size) room]
    _ = controlActions off z d (pageWriteTaken s a z d) := if_pos (by omega)
    _ = _ := controlActions_refills d _ low

/-- The sanders' causes are the same while other sanders are refilled, and before the entry is taken (R109). -/
theorem causeStands_whileRefilling {s u : State} {a : Address} {z : AccessSize} {d : Word} (b : BogieNo)
    (change : SanderChange (pageWriteTaken s a z d) u) :
    causeStands u u.allStanding b = causeStands s s.allStanding b := by
  obtain ⟨_, _, _, rfl, -⟩ := change
  rfl

/-- Settles O25: the bogie's own refill, found between those of the other bogies, by the table of R118. -/
theorem aRefillSetsTheBudgets : Obligations.ARefillSetsTheBudgets := by
  intro s a z d off page low high size room
  refine ⟨_, (exec_write s rfl).trans (congrArg done (presentWrite_refills d page low high size room)),
    fun b v field => ?_, fun b uncovered => ?_, ?_⟩
  · obtain ⟨k, place, covered, rfl⟩ : ∃ k, off + k = 0x24 + 2 * b.val ∧ k + 2 ≤ z.bytes ∧
        v = d.extractLsb' (8 * k) 16 := by
      rcases field with ⟨rfl, place, value⟩ | ⟨rfl, place, value⟩ | ⟨rfl, place, value⟩
      · exact ⟨0, place, by decide, value⟩
      · exact ⟨0, place, by decide, value⟩
      · exact ⟨2, place, by decide, value⟩
    obtain ⟨u, before, found, after, final⟩ :=
      carriedRefills_member off z d (b := b) (pageWriteTaken s a z d) (by decide) (mem_upTo4 b)
    have causes := causeStands_whileRefilling b before
    have mode : u.active = s.active := before.active
    have time : u.timeBase = s.timeBase := before.sameBut.1
    have kept : u.sand.sanders[b] = s.sand.sanders[b] := found
    rw [carriedRefill_covered d u place covered] at after final
    have requests := refill_requests (b := b) (s := u) (v := d.extractLsb' (8 * k) 16)
    have table := refill_table b u (d.extractLsb' (8 * k) 16)
    rw [← final, kept, mode, causes, time] at table
    rw [kept, mode, causes] at requests
    refine ⟨table.budget, table.accumulator, table.setup, fun active zero => ?_, table.other,
      fun active above empty => ⟨table.rests active above empty, fun cause => ?_⟩⟩
    · rw [← zero]
      exact table.zero active zero
    · obtain ⟨on, runs⟩ := table.enters active above empty cause
      exact ⟨on, runs, after.keeps b (requests active above empty cause)⟩
  · obtain ⟨u, -, found, -, final⟩ :=
      carriedRefills_member off z d (b := b) (pageWriteTaken s a z d) (by decide) (mem_upTo4 b)
    rw [carriedRefill_none d b u (by omega)] at final
    exact final.trans found
  · rw [unpersisted_zero, acked_zero]
    exact (carriedRefills_change off z d upTo4 (pageWriteTaken s a z d)).sameButSettled

end Sys2Proof.Machine
end

section
/-! PROOFS. 07_sanders_and_the_sand_budget.md: that a sander is in EMPTY exactly while its budget is zero outside SETUP
(R117). -/

namespace Sys2Proof.Machine

/-! ### What the invariant reads -/

/-- The sander is in EMPTY exactly when the part is outside SETUP and the budget is zero: `EmptySound` of one record. -/
def Sander.EmptyFits (x : Sander) (active : Bool) : Prop :=
  x.state = .empty ↔ active = true ∧ x.budget = 0

theorem emptySound_iff (s : State) : EmptySound s ↔ ∀ b : BogieNo, s.sand.sanders[b].EmptyFits s.active := Iff.rfl

theorem Sander.emptyFits_emptied {x : Sander} (zero : x.budget = 0) : x.emptied.EmptyFits true :=
  iff_of_true rfl ⟨rfl, zero⟩

theorem Sander.emptyFits_nonzero {x : Sander} {active : Bool} (other : x.state ≠ .empty) (left : x.budget ≠ 0) :
    x.EmptyFits active :=
  iff_of_false other fun zero => left zero.2

theorem Sander.emptyFits_setup {x : Sander} (other : x.state ≠ .empty) : x.EmptyFits false :=
  iff_of_false other fun active => Bool.false_ne_true active.1

/-- A record of the same state and budget. -/
theorem Sander.EmptyFits.same {x y : Sander} {active : Bool} (fits : x.EmptyFits active) (state : y.state = x.state)
    (budget : y.budget = x.budget) : y.EmptyFits active := by
  rw [Sander.EmptyFits, state, budget]
  exact fits

/-- A sander that moves from one state other than EMPTY to another with its budget. -/
theorem Sander.EmptyFits.moved {x y : Sander} {active : Bool} (fits : x.EmptyFits active) (before : x.state ≠ .empty)
    (after : y.state ≠ .empty) (budget : y.budget = x.budget) : y.EmptyFits active :=
  iff_of_false after fun zero => before (fits.2 ⟨zero.1, budget ▸ zero.2⟩)

/-- A change from the first state to the second keeps the invariant. -/
def EmptyKept (s t : State) : Prop := EmptySound s → EmptySound t

theorem EmptyKept.trans {s t u : State} (h : EmptyKept s t) (k : EmptyKept t u) : EmptyKept s u := k ∘ h

/-- A new record for one sander. -/
theorem EmptyKept.ofSander {s : State} {b : BogieNo} {y : Sander}
    (fits : s.sand.sanders[b].EmptyFits s.active → y.EmptyFits s.active) : EmptyKept s (setSander b y s) := by
  rw [EmptyKept, emptySound_iff, emptySound_iff]
  intro sound e
  by_cases own : b = e
  · subst own
    rw [setSander_same]
    exact fits (sound b)
  · rw [setSander_other b e y s own]
    exact sound e

/-! ### Operations that leave every budget and take no sander into or out of EMPTY -/

/-- The second state has the first's budgets, its sanders in EMPTY, and SETUP or not as it had. -/
structure SameEmpties (s t : State) : Prop where
  active : t.active = s.active
  budget (b : BogieNo) : t.sand.sanders[b].budget = s.sand.sanders[b].budget
  empty (b : BogieNo) : t.sand.sanders[b].state = .empty ↔ s.sand.sanders[b].state = .empty

theorem SameEmpties.kept {s t : State} (h : SameEmpties s t) : EmptyKept s t := by
  intro sound b
  rw [h.empty, h.active, h.budget]
  exact sound b

theorem SameEmpties.trans {s t u : State} (h : SameEmpties s t) (k : SameEmpties t u) : SameEmpties s u where
  active := k.active.trans h.active
  budget b := (k.budget b).trans (h.budget b)
  empty b := (k.empty b).trans (h.empty b)

/-- A change of neither the mode nor the sanders' records. -/
theorem SameEmpties.of {s t : State} (active : t.active = s.active) (sanders : t.sand.sanders = s.sand.sanders) :
    SameEmpties s t :=
  ⟨active, fun b => by rw [sanders], fun b => by rw [sanders]⟩

theorem SameEmpties.refl (s : State) : SameEmpties s s := .of rfl rfl

theorem sanderEvent_sameEmpties (v : Vector Request 4) (issuing : Option BogieNo) (b : BogieNo) (s : State) :
    SameEmpties s (sanderEvent v issuing b s) where
  active := (sanderEvent_change v issuing b s).active
  budget e := by
    obtain ⟨budget, -, -⟩ := sanderEvent_keeps v issuing b e s
    exact budget
  empty e := by
    obtain ⟨-, -, empty⟩ := sanderEvent_keeps v issuing b e s
    exact empty

theorem sandersEvent_sameEmpties (v : Vector Request 4) (issuing : Option BogieNo) (s : State) :
    SameEmpties s (sandersEvent v issuing s) := by
  unfold sandersEvent
  rw [foldl_upTo4]
  exact (((sanderEvent_sameEmpties v issuing 0 s).trans (sanderEvent_sameEmpties v issuing 1 _)).trans
    (sanderEvent_sameEmpties v issuing 2 _)).trans (sanderEvent_sameEmpties v issuing 3 _)

/-- The records are those that an event leaves of a state with the first's records. -/
theorem SameEmpties.ofEvent {s t u : State} {v : Vector Request 4} {issuing : Option BogieNo}
    (left : t.sand.sanders = (sandersEvent v issuing u).sand.sanders) (active : t.active = s.active)
    (mode : u.active = s.active) (found : u.sand.sanders = s.sand.sanders) : SameEmpties s t := by
  have event := (SameEmpties.of mode found).trans (sandersEvent_sameEmpties v issuing u)
  exact event.trans (.of (active.trans event.active.symm) left)

theorem SameEmpties.reacted {s t : State} (h : SameEmpties s t) : SameEmpties s (sandersReact t) :=
  h.trans (sandersEvent_sameEmpties _ _ t)

theorem SameEmpties.rewritten {s t u : State} (h : SameEmpties s t) (k : RewriteChange t u) : SameEmpties s u :=
  h.trans (.of k.active (congrArg Sand.sanders k.sand))

theorem SameEmpties.raised {s t : State} (k : NoticeKind) (i : Nat) (h : SameEmpties s t) :
    SameEmpties s (raise k i t) :=
  h.trans (.of rfl rfl)

theorem active_of_control {s u : State} (control : u.control = s.control) : u.active = s.active := by
  rw [State.active, control, State.active]

section
variable (s : State)

/-! ### A stored sample -/

theorem evaluateVref_sameEmpties (n : AxleNo) : SameEmpties s (evaluateVref n s) := by
  have left := congrArg (fun t : State => t.sand.sanders) (evaluateVref_event n s)
  exact .ofEvent left (evaluateVref_middle n s).active (active_of_control rfl) rfl

theorem enterSlip_sameEmpties (n : AxleNo) : SameEmpties s (enterSlip n s) := by
  have left := congrArg Sand.sanders (enterSlip_sand n s)
  exact .ofEvent left (enterSlip_middle n s).active (active_of_control rfl) rfl

theorem transition_sameEmpties (n : AxleNo) : SameEmpties s (transition n s) := by
  rcases transition_plan n (SameInputs.refl s) with ⟨h, -⟩ | ⟨x, -, h, -⟩ | ⟨x, -, h, -⟩ | ⟨h, -⟩ <;> rw [h]
  · exact enterSlip_sameEmpties s n
  · exact .of rfl rfl
  · exact .reacted (.of rfl rfl)
  · exact .refl s

theorem latchRollback_sameEmpties (n : AxleNo) : SameEmpties s (latchRollback n s) := by
  have left := congrArg Sand.sanders (latchRollback_sand n s)
  exact .ofEvent left (latchRollback_middle n s).active (active_of_control rfl) rfl

theorem storeSample_sameEmpties (n : AxleNo) (speed : Nat) (quality : Quality) (sensed : Option Direction) :
    SameEmpties s (storeSample n speed quality sensed s) := by
  have stored : SameEmpties s (setAxle n (s.axles[n].store speed quality s.timeBase) s) := .of rfl rfl
  have measured (u : State) : SameEmpties u (evaluated n speed u) := .of rfl rfl
  have moved : SameEmpties s (transition n (sampled n speed quality s)) :=
    ((stored.trans (evaluateVref_sameEmpties _ n)).trans (measured _)).trans (transition_sameEmpties _ n)
  rw [storeSample_eq]
  split
  · exact moved.trans (latchRollback_sameEmpties _ n)
  · exact moved

theorem applySpeed_sameEmpties (n : AxleNo) (r : Record) : SameEmpties s (applySpeed n r s) := by
  have classed : SameEmpties s
      (if sequenceClass s.axles[n].lastSequence r[14] = .gap then
        raise .seqGap n.val (setAxle n { s.axles[n] with lastSequence := some r[14] } s)
      else setAxle n { s.axles[n] with lastSequence := some r[14] } s) := by
    split <;> exact .of rfl rfl
  unfold applySpeed
  simp only
  split
  · exact .refl s
  · split
    · exact classed
    · exact classed.trans (storeSample_sameEmpties _ _ _ _ _)
    · exact classed.trans (storeSample_sameEmpties _ _ _ _ _)

/-! ### An issue (R131) -/

theorem composingState_sameEmpties (b : BogieNo) (q : Request) (rewrite : Bool) :
    SameEmpties s (composingState b q rewrite s) := by
  cases active : s.active with
  | false =>
    have left : composingState b q rewrite s = leaveRewriteSet b rewrite s := if_neg (by rw [active]; decide)
    rw [left]
    exact .of rfl rfl
  | true =>
    obtain ⟨w, shape, opens, stays, event⟩ := composingState_eq b q rewrite s active
    have found : w.sand.sanders = s.sand.sanders := by
      by_cases hill : HillStartOpens s b q
      · rw [opens hill]
      · rw [stays hill]
    have mode : w.active = s.active := by rw [shape]; rfl
    have left := congrArg (fun t : State => t.sand.sanders) event
    exact .ofEvent left ((congrArg State.active event).trans ((sandersEvent_change _ _ w).active.trans mode)) mode found

theorem holdStage_sameEmpties (b : BogieNo) (q : Request) (before : Bool) :
    SameEmpties s (holdStage b q before s) := by
  have active := (holdStage_middle b q before s).active
  obtain ⟨unconfirmed, confirmed⟩ := holdStage_sand b q before s
  by_cases latch : LatchConfirmed s b q
  · exact .ofEvent (confirmed latch).1 active active rfl
  · exact .of active (unconfirmed latch).1

theorem settleIssue_sameEmpties (b : BogieNo) (q : Request) (k : Commands) (before : Bool) :
    SameEmpties s (settleIssue b q k before s) := by
  cases active : s.active with
  | false =>
    have motors : settleIssue b q k before s = noteMotors b q k s := if_neg (by rw [active]; decide)
    rw [motors]
    exact .of rfl rfl
  | true =>
    have accounts : SameEmpties s (accounted b q k s) := by
      rw [accounted_eq]
      exact .of rfl rfl
    rw [settleIssue_active b q k before active]
    exact accounts.trans (holdStage_sameEmpties _ b q before)

theorem issueDemand_sameEmpties (b : BogieNo) (q : Request) (rewrite : Bool) (of : BurstOf) (a : Address) :
    SameEmpties s (issueDemand b q rewrite of a s) := by
  rw [issueDemand_eq]
  exact ((composingState_sameEmpties s b q rewrite).trans (settleIssue_sameEmpties _ b q _ _)).trans (.of rfl rfl)

/-! ### The other parts of commands -/

theorem applyFeedback_sameEmpties (b : BogieNo) (r : Record) : SameEmpties s (applyFeedback b r s) := by
  by_cases duplicate : s.feedback[b].lastSequence = some r[14]
  · rw [applyFeedback_duplicate duplicate]
    exact .refl s
  · rw [applyFeedback_fresh duplicate, evaluateGate_frame]
    exact .of rfl rfl

theorem applyDemand_sameEmpties (b : BogieNo) : SameEmpties s (applyDemand b s) := by
  unfold applyDemand
  simp only
  split
  · exact .reacted (.of rfl rfl)
  · exact .of rfl rfl

theorem staled_sameEmpties (n : AxleNo) : SameEmpties s (staled n s) := by
  have expired : SameEmpties s (setAxle n s.axles[n].expire s) := .of rfl rfl
  exact (expired.reacted.raised _ _).rewritten (requestRewrite_change _ _)

theorem demandTimerExpires_sameEmpties (b : BogieNo) : SameEmpties s (demandTimerExpires b s) := by
  have late : SameEmpties s
      (s.withSupervision (s.supervision.set b { s.supervision[b] with timer := none, late := true })) := .of rfl rfl
  exact (late.raised _ _).rewritten (requestRewrite_change b _)

theorem releaseWaitExpires_sameEmpties : SameEmpties s (releaseWaitExpires s) := by
  rw [releaseWaitExpires_eq]
  exact .of rfl rfl

theorem settlingExpires_sameEmpties : SameEmpties s (settlingExpires s) := by
  have clears (h : Hold) : SameEmpties s (sandersReact (s.withHold h)) := .reacted (.of rfl rfl)
  unfold settlingExpires
  simp only
  split
  · exact clears _
  · exact .of rfl rfl

theorem windowExpires_sameEmpties : SameEmpties s (windowExpires s) :=
  .reacted (.of rfl rfl)

/-- FALLBACK is entered from RUN, outside SETUP as FALLBACK is (R152). -/
theorem fallbackEntry_sameEmpties (c : FallbackCause) (run : s.control.mode = .run) :
    SameEmpties s (fallbackEntry c s) := by
  have active : (s.withControl { s.control with mode := .fallback, fallbackCause := c }).active = s.active := by
    simp [State.active, run]
  have entered : SameEmpties s (s.withControl { s.control with mode := .fallback, fallbackCause := c }) :=
    .of active rfl
  exact (entered.rewritten (requestAllRewrites_change _)).reacted

/-! ### Operations on one sander's state or budget -/

/-- The dwell and the pause expiry take a sander out of DWELL or PAUSE (R113, R115). -/
theorem expires_emptyKept {b : BogieNo} (other : s.sand.sanders[b].state ≠ .empty) :
    EmptyKept s (sanderEvent s.allStanding none b (setSander b s.sand.sanders[b].stopped s)) := by
  have off : s.sand.sanders[b].stopped.state ≠ .empty := by simp [Sander.stopped, Sander.reset]
  have stopped : EmptyKept s (setSander b s.sand.sanders[b].stopped s) :=
    .ofSander fun fits => Sander.EmptyFits.moved fits other off rfl
  exact stopped.trans (sanderEvent_sameEmpties _ _ _ _).kept

/-- The run timer expires in ON or DWELL (R114). -/
theorem runExpires_emptyKept {b : BogieNo} (other : s.sand.sanders[b].state ≠ .empty) :
    EmptyKept s (runExpires b s) := by
  rw [runExpires_eq]
  refine .ofSander fun fits => ?_
  split
  · exact Sander.EmptyFits.moved fits other (by simp [Sander.paused]) rfl
  · exact Sander.EmptyFits.same fits rfl rfl

/-- A fall leaves a budget of 0 at the last unit alone, at which the sander enters EMPTY outside SETUP (R116, R117). -/
theorem budgetFall_emptyKept (b : BogieNo) : EmptyKept s (budgetFall b s) := by
  by_cases spent : s.sand.sanders[b].budget = 0
  · rw [budgetFall_none spent]
    exact .ofSander fun fits => Sander.EmptyFits.same fits rfl rfl
  · rw [budgetFall_blocks spent]
    refine EmptyKept.trans (.ofSander (b := b) fun fits => ?_) (SameEmpties.of rfl rfl).kept
    have other : s.sand.sanders[b].state ≠ .empty := fun empty => spent (fits.1 empty).2
    by_cases last : s.sand.sanders[b].budget = 1
    · have zero : s.sand.sanders[b].fallen.budget = 0 := by
        rw [Sander.fallen, last]
        rfl
      cases active : s.active with
      | false =>
        rw [if_neg fun h => Bool.false_ne_true h.2]
        exact Sander.emptyFits_setup other
      | true =>
        rw [if_pos ⟨last, rfl⟩]
        exact Sander.emptyFits_emptied zero
    · rw [if_neg fun h => last h.1]
      refine Sander.emptyFits_nonzero other fun zero => last ?_
      have step : s.sand.sanders[b].budget - 1 = 0 := zero
      bv_omega

/-- A refill by the table of R118. -/
theorem refill_emptyKept (b : BogieNo) (v : Half) : EmptyKept s (refill b v s) := by
  cases active : s.active with
  | false =>
    rw [refill_setup active]
    refine .ofSander fun fits => ?_
    rw [active] at fits ⊢
    exact Sander.emptyFits_setup fun empty => Bool.false_ne_true (fits.1 empty).1
  | true =>
    by_cases zero : v = 0
    · rw [refill_zero active zero]
      refine .ofSander fun _ => ?_
      rw [active]
      exact Sander.emptyFits_emptied zero
    · by_cases empty : s.sand.sanders[b].state = .empty
      · rw [refill_emptied active zero empty]
        have off : (s.sand.sanders[b].refilled v).stopped.state ≠ .empty := by simp [Sander.stopped, Sander.reset]
        exact (EmptyKept.ofSander fun _ => Sander.emptyFits_nonzero off zero).trans
          (sanderEvent_sameEmpties _ _ _ _).kept
      · rw [refill_other active zero empty]
        exact .ofSander fun _ => Sander.emptyFits_nonzero empty zero

end

/-! ### Mode changes, resets and the passing of time -/

/-- In SETUP every sander is out of EMPTY (R122). -/
theorem emptySound_setup {t : State} (setup : t.active = false) (off : ∀ b : BogieNo, t.sand.sanders[b].state = .off) :
    EmptySound t := by
  rw [emptySound_iff, setup]
  exact fun b => Sander.emptyFits_setup (by rw [off b]; decide)

theorem runEntry_emptySound (s : State) : EmptySound (runEntry s) := by
  intro b
  have entered : (runEntry s).sand.sanders[b] = s.sand.sanders[b].atRunEntry := by simp [runEntry]
  have active : (runEntry s).active = true := by simp [runEntry, State.active]
  rw [entered, active]
  simp [Sander.atRunEntry]

theorem setupEntry_emptySound (s : State) : EmptySound (setupEntry s) :=
  emptySound_setup (by simp [setupEntry, dropSpeedSnapshots, State.active]) fun b => by
    simp [setupEntry, dropSpeedSnapshots, Sander.atSetupEntry, Sander.reset]

theorem powerOnState_emptySound (straps : Fin 8) (s : State) : EmptySound (powerOnState straps s) :=
  emptySound_setup rfl fun b => congrArg Sander.state (sander_reset b)

theorem rackResetState_emptySound (straps : Fin 8) (s : State) : EmptySound (rackResetState straps s) :=
  emptySound_setup rfl fun b => by simp [rackResetState, Sander.atRackReset, Sander.reset]

theorem tick_sameEmpties (s : State) : SameEmpties s (tick s) where
  active := rfl
  budget b := by rw [tick_sander]
  empty b := by rw [tick_sander]

/-- Every part of a command keeps the invariant. -/
theorem emptyKept_parts : CommandParts EmptyKept where
  refl _ := id
  trans := .trans
  outer {s t} h := by
    unfold OuterChange at h
    rw [h]
    exact (SameEmpties.of rfl rfl).kept
  powerOn straps s _ := powerOnState_emptySound straps s
  rackReset straps s _ := rackResetState_emptySound straps s
  raise _ _ s := ((SameEmpties.refl s).raised _ _).kept
  applySpeed n r s := (applySpeed_sameEmpties s n r).kept
  applyFeedback b r s := (applyFeedback_sameEmpties s b r).kept
  applyDemand b s := (applyDemand_sameEmpties s b).kept
  clearFlags _ _ := (SameEmpties.of rfl rfl).kept
  acknowledge _ _ := (SameEmpties.of rfl rfl).kept
  refill b v s := refill_emptyKept s b v
  shadowWrite _ _ := (SameEmpties.of rfl rfl).kept
  rejectReason _ _ := (SameEmpties.of rfl rfl).kept
  runEntry {s} _ _ := runEntry_emptySound s
  setupEntry {s} _ _ := setupEntry_emptySound s
  fallbackEntry c s run := (fallbackEntry_sameEmpties s c run).kept
  staled {n s} _ := (staled_sameEmpties s n).kept
  freshnessExpires _ := (SameEmpties.of rfl rfl).kept
  demandTimerExpires {b s} _ := (demandTimerExpires_sameEmpties s b).kept
  releaseWaitExpires {s} _ := (releaseWaitExpires_sameEmpties s).kept
  settlingExpires {s} _ := (settlingExpires_sameEmpties s).kept
  windowExpires {s} _ := (windowExpires_sameEmpties s).kept
  dwellExpires {b s} due := by
    obtain ⟨dwells, -⟩ := (dwellDue_iff s b).1 due
    rw [dwellExpires_eq]
    exact expires_emptyKept s (by rw [dwells]; decide)
  runExpires {b s} due := by
    obtain ⟨sands, -⟩ := (runDue_iff s b).1 due
    exact runExpires_emptyKept s (by rcases sands with h | h <;> rw [h] <;> decide)
  pauseExpires {b s} due := by
    obtain ⟨pauses, -⟩ := (pauseDue_iff s b).1 due
    rw [pauseExpires_eq]
    exact expires_emptyKept s (by rw [pauses]; decide)
  budgetFall {b s} _ := budgetFall_emptyKept s b
  issueDemand b q rewrite of a s := (issueDemand_sameEmpties s b q rewrite of a).kept

/-- Settles O57: every part of a command keeps EMPTY for an empty budget, and so does every step. -/
theorem everyStepKeepsEmptyForAnEmptyBudget : Obligations.EveryStepKeepsEmptyForAnEmptyBudget :=
  emptyKept_parts.step_keeps EmptySound (fun _ _ h => h) (fun _ _ h => h) (fun _ _ h => h)
    fun s h => (tick_sameEmpties s).kept h

end Sys2Proof.Machine
end

section
/-! PROOFS. 08_the_outbound_queue_and_the_downstream_port.md and 09_modes_and_demand_supervision.md: that the rewrite set
is empty in SETUP (R126), and the timers of LATE bogies and STALE axles stopped (R32, R146). -/

namespace Sys2Proof.Machine

/-! ### The rewrite set in SETUP (R126) -/

/-- A change from the first state to the second keeps the rewrite set empty in SETUP. -/
def RewritesKept (s t : State) : Prop := RewritesSound s → RewritesSound t

theorem RewritesKept.trans {s t u : State} (h : RewritesKept s t) (k : RewritesKept t u) : RewritesKept s u := k ∘ h

/-- A change that leaves the mode and the rewrite set. -/
theorem RewritesKept.of {s t : State} (mode : t.control.mode = s.control.mode)
    (set : t.emission.rewriteSet = s.emission.rewriteSet) : RewritesKept s t := by
  intro sound setup
  rw [set]
  exact sound (mode ▸ setup)

/-- Outside SETUP nothing is asked of the rewrite set. -/
theorem RewritesKept.outside {s t : State} (mode : t.control.mode ≠ .setup) : RewritesKept s t :=
  fun _ setup => absurd setup mode

theorem RewritesKept.ofEmpty {s t : State} (empty : t.emission.rewriteSet = BogieSet.none) : RewritesKept s t :=
  fun _ _ => empty

/-- No rewrite request is taken in SETUP. -/
theorem MiddleChange.rewritesKept {s t : State} (h : MiddleChange s t) : RewritesKept s t := by
  intro sound setup
  have before : s.control.mode = .setup := h.control ▸ setup
  rw [h.setup (by simp [State.active, before])]
  exact sound before

/-- A bogie that leaves the empty set leaves it empty. -/
theorem none_set_false (b : BogieNo) : BogieSet.none.set b false = BogieSet.none := by
  rw [eq_none_iff]
  intro c
  by_cases own : b = c
  · subst own
    exact set_same _ _ _
  · rw [set_other _ _ _ _ own]
    exact (eq_none_iff _).1 rfl c

theorem leaveRewriteSet_rewritesKept (b : BogieNo) (rewrite : Bool) (s : State) :
    RewritesKept s (leaveRewriteSet b rewrite s) := by
  intro sound setup
  show s.emission.rewriteSet.set b false = _
  rw [sound setup, none_set_false]

theorem composingState_rewritesKept (b : BogieNo) (q : Request) (rewrite : Bool) (s : State) :
    RewritesKept s (composingState b q rewrite s) := by
  have left := leaveRewriteSet_rewritesKept b rewrite s
  unfold composingState
  simp only
  split
  · exact left.trans (prepareIssue_middle b q _).rewritesKept
  · exact left

theorem issueDemand_rewritesKept (b : BogieNo) (q : Request) (rewrite : Bool) (of : BurstOf) (a : Address)
    (s : State) : RewritesKept s (issueDemand b q rewrite of a s) := by
  rw [issueDemand_eq]
  exact ((composingState_rewritesKept b q rewrite s).trans (settleIssue_middle b q _ _ _).rewritesKept).trans
    (.of rfl rfl)

theorem staled_middle (n : AxleNo) (s : State) : MiddleChange s (staled n s) :=
  (((setAxle_middle _ _ _).trans (sandersReact_middle _)).trans (raise_middle _ _ _)).trans (requestRewrite_middle _ _)

theorem fallbackEntry_mode (c : FallbackCause) (s : State) : (fallbackEntry c s).control.mode = .fallback :=
  congrArg Control.mode (MiddleChange.ofSander (fallbackEntry_change c s)).control

/-- Every part of a command keeps the rewrite set empty in SETUP. -/
theorem rewritesKept_parts : CommandParts RewritesKept where
  refl _ := id
  trans := .trans
  outer h := by
    unfold OuterChange at h
    have mode := congrArg (fun u : State => u.control.mode) h
    have set := congrArg (fun u : State => u.emission.rewriteSet) h
    exact .of mode set
  powerOn _ _ := .ofEmpty rfl
  rackReset _ _ := .ofEmpty rfl
  raise k i s := (raise_middle k i s).rewritesKept
  applySpeed n r s := (applySpeed_middle n r s).rewritesKept
  applyFeedback b r s := (applyFeedback_middle b r s).rewritesKept
  applyDemand b s := (applyDemand_middle b s).rewritesKept
  clearFlags m s := (clearPersistentFlags_middle m s).rewritesKept
  acknowledge m s := (acknowledge_middle m s).rewritesKept
  refill b v s := (refill_middle b v s).rewritesKept
  shadowWrite _ _ := .of rfl rfl
  rejectReason _ _ := .of rfl rfl
  runEntry _ := .outside (by simp [Machine.runEntry])
  setupEntry _ := .ofEmpty rfl
  fallbackEntry c s _ := .outside (by rw [fallbackEntry_mode]; decide)
  staled {n s} _ := (staled_middle n s).rewritesKept
  freshnessExpires {b s} _ := (freshnessExpires_middle b s).rewritesKept
  demandTimerExpires {b s} _ := (demandTimerExpires_middle b s).rewritesKept
  releaseWaitExpires {s} _ := (releaseWaitExpires_middle s).rewritesKept
  settlingExpires {s} _ := (settlingExpires_middle s).rewritesKept
  windowExpires {s} _ := (windowExpires_middle s).rewritesKept
  dwellExpires {b s} _ := (dwellExpires_middle b s).rewritesKept
  runExpires {b s} _ := (runExpires_middle b s).rewritesKept
  pauseExpires {b s} _ := (pauseExpires_middle b s).rewritesKept
  budgetFall {b s} _ := (budgetFall_middle b s).rewritesKept
  issueDemand := issueDemand_rewritesKept

/-! ### What the timers' invariant reads (R32, R146) -/

/-- A STALE axle's staleness timer is stopped: `TimersSound` of one axle record. -/
def Axle.TimerFits (x : Axle) : Prop := x.state = .stale → x.staleness = none

/-- A LATE bogie's demand timer is stopped: `TimersSound` of one supervision record. -/
def Supervision.TimerFits (x : Supervision) : Prop := x.late = true → x.timer = none

theorem timersSound_iff (s : State) :
    TimersSound s ↔ (∀ b : BogieNo, s.supervision[b].TimerFits) ∧ ∀ n : AxleNo, s.axles[n].TimerFits := Iff.rfl

theorem Axle.timerFits_of_ne_stale {x : Axle} (other : x.state ≠ .stale) : x.TimerFits :=
  fun stale => absurd stale other

theorem Supervision.timerFits_of_live {x : Supervision} (live : x.late = false) : x.TimerFits :=
  fun late => absurd (late.symm.trans live) (by decide)

/-- A change from the first state to the second keeps the timers stopped. -/
def TimersKept (s t : State) : Prop := TimersSound s → TimersSound t

theorem TimersKept.refl (s : State) : TimersKept s s := id

theorem TimersKept.trans {s t u : State} (h : TimersKept s t) (k : TimersKept t u) : TimersKept s u := k ∘ h

/-- New axle records that fit where the old ones did, the supervision records left. -/
theorem TimersKept.ofAxles {s t : State} (axles : ∀ n : AxleNo, s.axles[n].TimerFits → t.axles[n].TimerFits)
    (supervision : t.supervision = s.supervision) : TimersKept s t := by
  intro sound
  obtain ⟨late, stale⟩ := (timersSound_iff s).1 sound
  exact (timersSound_iff t).2 ⟨by rw [supervision]; exact late, fun n => axles n (stale n)⟩

/-- A new supervision record that fits where the old one did, the axle records left. -/
theorem TimersKept.ofSupervision {s t : State} {b : BogieNo} {x : Supervision}
    (fits : s.supervision[b].TimerFits → x.TimerFits) (supervision : t.supervision = s.supervision.set b x)
    (axles : t.axles = s.axles) : TimersKept s t := by
  intro sound
  obtain ⟨late, stale⟩ := (timersSound_iff s).1 sound
  refine (timersSound_iff t).2 ⟨fun c => ?_, by rw [axles]; exact stale⟩
  rw [supervision]
  by_cases own : b = c
  · subst own
    rw [set_same]
    exact fits (late b)
  · rw [set_other _ _ _ _ own]
    exact late c

/-- A change of neither the axle nor the supervision records. -/
theorem TimersKept.of {s t : State} (axles : t.axles = s.axles) (supervision : t.supervision = s.supervision) :
    TimersKept s t :=
  .ofAxles (fun n fits => by rw [axles]; exact fits) supervision

theorem SanderChange.timersKept {s t : State} (h : SanderChange s t) : TimersKept s t := by
  obtain ⟨_, _, _, rfl, -⟩ := h
  exact .of rfl rfl

theorem TimersKept.reacted {s t : State} (h : TimersKept s t) : TimersKept s (sandersReact t) :=
  h.trans (sandersReact_change t).timersKept

theorem TimersKept.sanded {s t : State} (v : Vector Request 4) (issuing : Option BogieNo) (b : BogieNo)
    (h : TimersKept s t) : TimersKept s (sanderEvent v issuing b t) :=
  h.trans (sanderEvent_change v issuing b t).timersKept

theorem TimersKept.requested {s t : State} (b : BogieNo) (h : TimersKept s t) : TimersKept s (requestRewrite b t) :=
  h.trans (SanderChange.ofRewrite (requestRewrite_change b t)).timersKept

theorem TimersKept.raised {s t : State} (k : NoticeKind) (i : Nat) (h : TimersKept s t) :
    TimersKept s (raise k i t) :=
  h.trans (.of rfl rfl)

theorem setAxle_same (n : AxleNo) (x : Axle) (s : State) : (setAxle n x s).axles[n] = x :=
  set_same _ _ _

theorem setAxle_other {n m : AxleNo} (x : Axle) (s : State) (h : n ≠ m) : (setAxle n x s).axles[m] = s.axles[m] :=
  set_other _ _ _ _ h

/-- A new record for one axle. -/
theorem setAxle_timersKept {s : State} {n : AxleNo} {x : Axle} (fits : s.axles[n].TimerFits → x.TimerFits) :
    TimersKept s (setAxle n x s) := by
  refine .ofAxles (fun m before => ?_) rfl
  by_cases own : n = m
  · subst own
    rw [setAxle_same]
    exact fits before
  · rw [setAxle_other x s own]
    exact before

section
variable (s : State)

/-! ### A stored sample (R32, R59) -/

theorem enterSlip_state (n : AxleNo) : (enterSlip n s).axles[n].state = .slip := by
  rw [enterSlip_axles]
  exact congrArg Axle.state (set_same _ _ _)

/-- The transition of an evaluated sample leaves its axle in a state other than STALE (R59). -/
theorem transition_ne_stale (n : AxleNo) : (transition n s).axles[n].state ≠ .stale := by
  have slipped : (enterSlip n s).axles[n].state ≠ .stale := by
    rw [enterSlip_state]
    decide
  have written (x : Axle) (other : x.state ≠ .stale) : (setAxle n x s).axles[n].state ≠ .stale := by
    rw [setAxle_same]
    exact other
  have kept {x : AdhesionState} (h : s.axles[n].state = x) (other : x ≠ .stale) : s.axles[n].state ≠ .stale :=
    h ▸ other
  cases h : s.axles[n].state with
  | grip =>
    cases slips : slipCondition s n with
    | true => exact transition_slipping (.inl h) slips ▸ slipped
    | false =>
      rw [transition_grip h slips]
      split
      · exact written _ (by simp)
      · exact kept h (by decide)
  | creep =>
    cases slips : slipCondition s n with
    | true => exact transition_slipping (.inr (.inl h)) slips ▸ slipped
    | false =>
      rw [transition_creep h slips]
      split
      · exact written _ (by simp)
      · exact kept h (by decide)
  | slip =>
    rw [transition_slip h]
    split
    · obtain ⟨record, -⟩ := slipExit_event (s := s) (s.axles[n].enterRecover s.axles[n].cutLevel s.timeBase)
      rw [record]
      simp [Axle.enterRecover]
    · exact kept h (by decide)
  | recover =>
    cases slips : slipCondition s n with
    | true => exact transition_slipping (.inr (.inr h)) slips ▸ slipped
    | false =>
      rw [transition_recover h slips]
      exact kept h (by decide)
  | stale =>
    rw [transition_stale h]
    exact written _ (by simp [Axle.enterRecover])

theorem storeSample_axles (n : AxleNo) (speed : Nat) (quality : Quality) (sensed : Option Direction) :
    (storeSample n speed quality sensed s).axles = (transition n (sampled n speed quality s)).axles := by
  rw [storeSample_eq]
  split
  · obtain ⟨axles, -⟩ := latchRollback_facts n (transition n (sampled n speed quality s))
    exact axles
  · rfl

/-- Up to its transition a sample writes the record of its own axle alone. -/
theorem sampled_other {n m : AxleNo} (speed : Nat) (quality : Quality) (h : m ≠ n) :
    (sampled n speed quality s).axles[m] = s.axles[m] := by
  obtain ⟨vref, -⟩ := evaluateVref_keeps n (setAxle n (s.axles[n].store speed quality s.timeBase) s)
  refine (set_other _ _ _ _ h.symm).trans ?_
  rw [vref]
  exact set_other _ _ _ _ h.symm

/-- The staleness timer that a store starts is that of an axle which the sample takes out of STALE (R32, R59). -/
theorem storeSample_timersKept (n : AxleNo) (speed : Nat) (quality : Quality) (sensed : Option Direction) :
    TimersKept s (storeSample n speed quality sensed s) := by
  obtain ⟨-, supervision⟩ := storeSample_blend n speed quality sensed s
  refine .ofAxles (fun m fits => ?_) supervision
  rw [storeSample_axles]
  by_cases own : m = n
  · subst own
    exact Axle.timerFits_of_ne_stale (transition_ne_stale _ m)
  · rw [transition_other _ own, sampled_other s speed quality own]
    exact fits

theorem applySpeed_timersKept (n : AxleNo) (r : Record) : TimersKept s (applySpeed n r s) := by
  have sequenced : TimersKept s (setAxle n { s.axles[n] with lastSequence := some r[14] } s) :=
    setAxle_timersKept id
  have classed : TimersKept s
      (if sequenceClass s.axles[n].lastSequence r[14] = .gap then
        raise .seqGap n.val (setAxle n { s.axles[n] with lastSequence := some r[14] } s)
      else setAxle n { s.axles[n] with lastSequence := some r[14] } s) := by
    split
    · exact sequenced.raised _ _
    · exact sequenced
  unfold applySpeed
  simp only
  split
  · exact .refl s
  · split
    · exact classed
    · exact classed.trans (storeSample_timersKept _ _ _ _ _)
    · exact classed.trans (storeSample_timersKept _ _ _ _ _)

/-! ### A demand, and the demand timer (R60, R144, R146) -/

/-- A demand makes its bogie LIVE, and takes none of its axles into STALE. -/
theorem applyDemand_timersKept (b : BogieNo) : TimersKept s (applyDemand b s) := by
  have live : TimersKept s { s with supervision := demanded b s } :=
    .ofSupervision (fun _ => Supervision.timerFits_of_live rfl) rfl rfl
  cases late : s.supervision[b].late with
  | false =>
    rw [applyDemand_live late]
    exact live
  | true =>
    obtain ⟨v, r, f, demand, -⟩ := applyDemand_late late
    rw [demand]
    refine live.trans (.ofAxles (fun n fits => ?_) rfl)
    show ((recovered b s)[n]).TimerFits
    rw [recovered_axle]
    split
    · exact Axle.timerFits_of_ne_stale (by simp)
    · exact fits

theorem demandTimerExpires_timersKept (b : BogieNo) : TimersKept s (demandTimerExpires b s) := by
  have late : TimersKept s
      (s.withSupervision (s.supervision.set b { s.supervision[b] with timer := none, late := true })) :=
    .ofSupervision (fun _ _ => rfl) rfl rfl
  exact (late.raised _ _).requested b

/-! ### An issue (R57, R131) -/

theorem composingState_timersKept (b : BogieNo) (q : Request) (rewrite : Bool) :
    TimersKept s (composingState b q rewrite s) := by
  cases active : s.active with
  | false =>
    have left : composingState b q rewrite s = leaveRewriteSet b rewrite s := if_neg (by rw [active]; decide)
    rw [left]
    exact .of rfl rfl
  | true =>
    obtain ⟨w, composing, -⟩ := composing_of_active b q rewrite active
    obtain ⟨axles, -, supervision, -⟩ := composing.sameRecords
    exact .of axles supervision

/-- The accounting of a motor command takes an axle into GRIP or leaves its state. -/
theorem Axle.TimerFits.noted {x : Axle} (fits : x.TimerFits) (motor : Int) (complete : Bool) :
    (x.noteEmission motor complete).TimerFits := by
  cases complete with
  | false => exact fits
  | true => exact Axle.timerFits_of_ne_stale (by simp [Axle.noteEmission])

theorem noteMotors_timersKept (b : BogieNo) (q : Request) (k : Commands) : TimersKept s (noteMotors b q k s) := by
  refine .ofAxles (fun n fits => ?_) rfl
  by_cases inA : s.shadow.axleAt b .a = some n
  · rw [noteMotors_slot b q k s .a n inA]
    exact fits.noted _ _
  · by_cases inB : s.shadow.axleAt b .b = some n
    · rw [noteMotors_slot b q k s .b n inB]
      exact fits.noted _ _
    · rw [noteMotors_other b q k s n inA inB]
      exact fits

theorem accounted_timersKept (b : BogieNo) (q : Request) (k : Commands) : TimersKept s (accounted b q k s) := by
  rw [accounted_eq]
  have standing : TimersKept (noteMotors b q k s)
      ((noteMotors b q k s).withSupervision (s.supervision.set b { s.supervision[b] with standing := q })) :=
    .ofSupervision (b := b) (x := { s.supervision[b] with standing := q }) id rfl rfl
  exact ((noteMotors_timersKept s b q k).trans standing).trans (.of rfl rfl)

theorem settleIssue_timersKept (b : BogieNo) (q : Request) (k : Commands) (before : Bool) :
    TimersKept s (settleIssue b q k before s) := by
  cases active : s.active with
  | false =>
    have motors : settleIssue b q k before s = noteMotors b q k s := if_neg (by rw [active]; decide)
    rw [motors]
    exact noteMotors_timersKept s b q k
  | true =>
    have still : (accounted b q k s).active = true := by
      rw [accounted_eq]
      exact active
    obtain ⟨-, -, -, -, -, -, -, -, -, axles, -, supervision, -⟩ := holdStage_facts b q before (accounted b q k s) still
    rw [settleIssue_active b q k before active]
    exact (accounted_timersKept s b q k).trans (.of axles supervision)

theorem issueDemand_timersKept (b : BogieNo) (q : Request) (rewrite : Bool) (of : BurstOf) (a : Address) :
    TimersKept s (issueDemand b q rewrite of a s) := by
  rw [issueDemand_eq]
  exact ((composingState_timersKept s b q rewrite).trans (settleIssue_timersKept _ b q _ _)).trans (.of rfl rfl)

/-! ### The other parts of commands -/

theorem applyFeedback_timersKept (b : BogieNo) (r : Record) : TimersKept s (applyFeedback b r s) := by
  by_cases duplicate : s.feedback[b].lastSequence = some r[14]
  · rw [applyFeedback_duplicate duplicate]
    exact .refl s
  · rw [applyFeedback_fresh duplicate, evaluateGate_frame]
    exact .of rfl rfl

theorem clearPersistentFlags_timersKept (mask : Byte) : TimersKept s (clearPersistentFlags mask s) := by
  refine .ofAxles (fun n fits => ?_) rfl
  have record : (clearPersistentFlags mask s).axles[n] =
      if mask.getLsbD n.val then { s.axles[n] with persistent := false, slipEntries := [] } else s.axles[n] := by
    simp [clearPersistentFlags]
  rw [record]
  split
  · exact fits
  · exact fits

/-- The staleness timer stops as the axle becomes STALE (R33). -/
theorem staled_timersKept (n : AxleNo) : TimersKept s (staled n s) := by
  have expired : TimersKept s (setAxle n s.axles[n].expire s) := setAxle_timersKept fun _ _ => rfl
  exact (expired.reacted.raised _ _).requested _

theorem releaseWaitExpires_timersKept : TimersKept s (releaseWaitExpires s) := by
  rw [releaseWaitExpires_eq]
  exact .of rfl rfl

theorem settlingExpires_timersKept : TimersKept s (settlingExpires s) := by
  have clears (h : Hold) : TimersKept s (sandersReact (s.withHold h)) := .reacted (.of rfl rfl)
  unfold settlingExpires
  simp only
  split
  · exact clears _
  · exact .of rfl rfl

theorem budgetFall_timersKept (b : BogieNo) : TimersKept s (budgetFall b s) := by
  by_cases spent : s.sand.sanders[b].budget = 0
  · rw [budgetFall_none spent]
    exact .of rfl rfl
  · rw [budgetFall_blocks spent]
    exact .of rfl rfl

theorem fallbackEntry_timersKept (c : FallbackCause) : TimersKept s (fallbackEntry c s) := by
  have entered : TimersKept s (s.withControl { s.control with mode := .fallback, fallbackCause := c }) := .of rfl rfl
  exact entered.trans (fallbackEntry_change c s).timersKept

/-- Records at their reset values, but for the demand timers of LIVE bogies (R150, R151, R153). -/
theorem timersSound_cleared {t : State} (axles : t.axles = Vector.replicate 8 Axle.reset)
    (live : ∀ b : BogieNo, t.supervision[b].late = false) : TimersSound t := by
  refine (timersSound_iff t).2 ⟨fun b => Supervision.timerFits_of_live (live b), fun n => ?_⟩
  rw [axles]
  simp [Axle.TimerFits, Axle.reset]

end

/-- Every part of a command keeps the timers of LATE bogies and STALE axles stopped. -/
theorem timersKept_parts : CommandParts TimersKept where
  refl := .refl
  trans := .trans
  outer h := by
    unfold OuterChange at h
    have axles := congrArg State.axles h
    have supervision := congrArg State.supervision h
    exact .of axles supervision
  powerOn _ _ _ := timersSound_cleared rfl fun b => congrArg Supervision.late (supervision_reset b)
  rackReset _ _ _ := timersSound_cleared rfl fun b => congrArg Supervision.late (supervision_reset b)
  raise _ _ _ := .of rfl rfl
  applySpeed n r s := applySpeed_timersKept s n r
  applyFeedback b r s := applyFeedback_timersKept s b r
  applyDemand b s := applyDemand_timersKept s b
  clearFlags m s := clearPersistentFlags_timersKept s m
  acknowledge _ _ := .of rfl rfl
  refill b v s := (refill_change b s v).timersKept
  shadowWrite _ _ := .of rfl rfl
  rejectReason _ _ := .of rfl rfl
  runEntry _ _ := timersSound_cleared rfl fun b => by simp [runEntry, Supervision.atRunEntry, Supervision.reset]
  setupEntry _ _ := timersSound_cleared rfl fun b => by simp [setupEntry, dropSpeedSnapshots, Supervision.reset]
  fallbackEntry c s _ := fallbackEntry_timersKept s c
  staled {n s} _ := staled_timersKept s n
  freshnessExpires _ := .of rfl rfl
  demandTimerExpires {b s} _ := demandTimerExpires_timersKept s b
  releaseWaitExpires {s} _ := releaseWaitExpires_timersKept s
  settlingExpires {s} _ := settlingExpires_timersKept s
  windowExpires _ := .reacted (.of rfl rfl)
  dwellExpires _ := .sanded _ _ _ (.of rfl rfl)
  runExpires {b s} _ := by
    rw [runExpires_eq]
    exact .of rfl rfl
  pauseExpires _ := .sanded _ _ _ (.of rfl rfl)
  budgetFall {b s} _ := budgetFall_timersKept s b
  issueDemand b q rewrite of a s := issueDemand_timersKept s b q rewrite of a

/-- Settles O58: every part of a command keeps the rewrite set empty in SETUP, and the timers of LATE bogies and STALE
axles stopped, and so does every step. -/
theorem everyStepKeepsRewritesAndTimersSound : Obligations.EveryStepKeepsRewritesAndTimersSound :=
  ⟨rewritesKept_parts.step_keeps RewritesSound (fun _ _ h => h) (fun _ _ h => h) (fun _ _ h => h) fun _ h => h,
    timersKept_parts.step_keeps TimersSound (fun _ _ h => h) (fun _ _ h => h) (fun _ _ h => h) fun _ h => h⟩

end Sys2Proof.Machine
end

section
/-! PROOFS. 08_the_outbound_queue_and_the_downstream_port.md: the issue of a pass or page access, the writes of a
bracketed burst, and what an ACK of the D-port does (R124, R134, R135, R160, R161, R165). -/

namespace Sys2Proof.Machine

/-! ### The issue of a pass or page access (R135) -/

/-- The entry is a pass or page entry of the size: a read, or a write of the data. -/
def Entry.Carries (x : Entry) (z : AccessSize) (w : Option Word) : Prop :=
  ((x.kind = .passRead z ∨ x.kind = .pageRead z) ∧ w = none) ∨
    ∃ d, (x.kind = .passWrite z d ∨ x.kind = .pageWrite z d) ∧ w = some d

theorem Entry.portAccess_of_carries {x : Entry} {z : AccessSize} {w : Option Word} (h : x.Carries z w) :
    x.portAccess = some { address := x.address, size := z, write := w } := by
  unfold Entry.portAccess
  rcases h with ⟨kind | kind, rfl⟩ | ⟨d, kind | kind, rfl⟩ <;> rw [kind]

theorem exec_passAccessIssue {s : State} {x : Entry} {p : PortAccess} (h : headMayIssue s.emission = true)
    (head : s.emission.queue.head? = some x) (carries : x.portAccess = some p) :
    exec .passAccessIssue s = done (issueAccess s) := by
  show execPassAccessIssue s = _
  simp only [execPassAccessIssue, (issuingHead_some s x).2 ⟨h, head⟩, carries]

/-- While an access is in flight the D-port presents the head entry's (R135). -/
theorem portAccess_access {s : State} {t0 : Word} (h : s.emission.inFlight = some (.access t0)) :
    s.portAccess = s.emission.queue.head?.bind Entry.portAccess := by
  simp only [State.portAccess, h]

/-- Settles O37: the issue launches the access, and the head entry is the one that carries it. -/
theorem aPassIssuePresentsTheMastersAccess : Obligations.APassIssuePresentsTheMastersAccess := by
  intro s x z w may head carried
  have carries : x.portAccess = some { address := x.address, size := z, write := w } :=
    Entry.portAccess_of_carries carried
  refine ⟨settle (issueAccess s), exec_passAccessIssue may head carries, rfl, ?_⟩
  have presented : (settle (issueAccess s)).portAccess = s.emission.queue.head?.bind Entry.portAccess :=
    portAccess_access rfl
  rw [presented, head]
  exact carries

/-! ### The writes of a bracketed burst (R134) -/

/-- While a burst is in flight the D-port presents the write it has reached. -/
theorem portAccess_burst {s : State} {of : BurstOf} {a : Address} {r : Record} {k : Fin 5} {t0 : Word}
    (h : s.emission.inFlight = some (.burst of a r k t0)) : s.portAccess = some (burstWrite a r k) := by
  simp only [State.portAccess, h]

/-- The check of the first write is wrong: no byte is its own ones' complement. -/
theorem ne_complement (x : Byte) : x ≠ ~~~ x := by
  intro same
  have bit := congrArg (fun y : Byte => y.getLsbD 0) same
  simp at bit

/-! ### An ACK to a burst (R124, R134) -/

section
variable {s : State} {a : Address} {r : Record} {k : Fin 5} {t0 : Word} (d : Word)

theorem passFlight_next (of : BurstOf) (before : k.val < 4) :
    passFlight (.burst of a r k t0) d s = nextWrite of a r k s :=
  if_pos (show k < 4 from before)

/-- The fifth write ends a rewrite's burst, and the port is free. -/
theorem passFlight_rewrite (b : BogieNo) (n : Fin 2) (last : k.val = 4) :
    passFlight (.burst (.rewrite b n) a r k t0) d s = freePort s :=
  if_neg (show ¬ k < 4 by omega)

/-- The end of the head entry's burst: the entry leaves, and a DEMAND_COMMIT's master has its answer. -/
theorem answerHeadBurst_eq (ans : Answer) {x : Entry} {rest : List Entry} (hq : s.emission.queue = x :: rest) :
    answerHeadBurst ans x s =
      { s with
        emission := { s.emission with queue := rest }
        bus := if x.isDemand = true then answered x.tag ans none else s.bus } := by
  have popped : s.emission.queue.tail = rest := by rw [hq, List.tail_cons]
  subst popped
  unfold answerHeadBurst Entry.isDemand
  cases x.kind <;> rfl

theorem passFlight_head {x : Entry} {rest : List Entry} (last : k.val = 4) (hq : s.emission.queue = x :: rest) :
    passFlight (.burst .head a r k t0) d s = freePort (answerHeadBurst .ack x s) := by
  have fifth : ¬ k < 4 := by omega
  simp only [passFlight, if_neg fifth, hq, List.head?_cons]

/-- An ACK to a pass or page access: the entry leaves, its fixed values are used up, and its master is answered. -/
theorem passFlight_access {x : Entry} {rest : List Entry} (hq : s.emission.queue = x :: rest) :
    passFlight (.access t0) d s =
      { s with
        emission := ended rest s.emission
        overlay := { s.overlay with fixed := none }
        bus := answered x.tag .ack (readData x d s) } := by
  simp only [passFlight, hq, List.head?_cons, finishAccess, popHead, List.tail_cons]
  rfl

end

/-- Settles O43: the write the burst has reached, and the three ways in which an ACK carries it on. -/
theorem anAckCarriesABracketedBurstOn : Obligations.AnAckCarriesABracketedBurstOn := by
  refine ⟨fun s of a r k t0 flight => ?_, fun s d of a r k t0 w flight named => ?_⟩
  · rw [portAccess_burst flight]
    refine ⟨?_, ?_, ?_, ?_, ?_, ne_complement _⟩ <;> (rintro rfl; rfl)
  · have taken : exec (.dPortAck d w) s = done (passFlight (.burst of a r k t0) d s) := exec_ack d flight named
    refine ⟨fun before => ?_, fun last b n rewrites => ?_, fun last heads x rest hq => ?_⟩
    · exact taken.trans (done_of_eq (passFlight_next d of before))
    · subst rewrites
      exact taken.trans (done_of_eq (passFlight_rewrite d b n last))
    · subst heads
      have finished : passFlight (.burst .head a r k t0) d s = freePort _ :=
        (passFlight_head d last hq).trans (congrArg freePort (answerHeadBurst_eq .ack hq))
      exact taken.trans (done_of_eq finished)

/-! ### What a read returns (R124, R160, R161, R165) -/

section
variable {x : Entry} {z : AccessSize} {s : State} (d : Word)

theorem readData_read (h : x.kind = .passRead z ∨ x.kind = .pageRead z) :
    readData x d s = some (layOver (overlayFor s x.address z) (dataBytes z d)) := by
  unfold readData
  rcases h with kind | kind <;> rw [kind]

theorem readData_write {w : Word} (h : x.kind = .passWrite z w ∨ x.kind = .pageWrite z w) : readData x d s = none := by
  unfold readData
  rcases h with kind | kind <;> rw [kind]

theorem overlayFor_fixed {a : Address} {f : List (Option Byte)} (h : s.overlay.fixed = some f) :
    overlayFor s a z = f := by
  simp only [overlayFor, h]

/-- With no values fixed the page's overlay is laid over a read of the page, and nothing over another. The definition is
unfolded with no state in its place, so that the kernel need not evaluate the location of the address. -/
theorem overlayFor_live {a : Address} {o : Option Nat} (free : s.overlay.fixed = none) (located : pageOffset s a = o) :
    overlayFor s a z = o.elim (List.replicate z.bytes none)
      fun off => (List.range z.bytes).map fun i => pageOverlay s (off + i) := by
  suffices h : ∀ f, f = @overlayFor → f s a z = _ from h _ rfl
  delta overlayFor
  rintro f rfl
  beta_reduce
  rw [free, located]
  cases o <;> rfl

theorem dataBytes_length (z : AccessSize) : (dataBytes z d).length = z.bytes := by
  cases z <;> rfl

/-- Where nothing is overlaid, memory's bytes are returned. -/
theorem layOver_nothing (z : AccessSize) : layOver (List.replicate z.bytes none) (dataBytes z d) = dataBytes z d := by
  cases z <;> rfl

/-- A byte read from the page: the overlay's, or memory's where it has none. -/
theorem layOver_page_get (off : Nat) {i : Nat} (h : i < z.bytes) :
    (layOver ((List.range z.bytes).map fun j => pageOverlay s (off + j)) (dataBytes z d))[i]? =
      (pageOverlay s (off + i)).or (dataBytes z d)[i]? := by
  have covered : i < (dataBytes z d).length := by rw [dataBytes_length]; exact h
  rw [layOver, List.getElem?_zipWith, List.getElem?_map, List.getElem?_range h, Option.map_some,
    List.getElem?_eq_getElem covered]
  cases pageOverlay s (off + i) <;> rfl

theorem pageOverlay_or (s : State) (off : Nat) (m : Option Byte) : (pageOverlay s off).or m =
    if 0x40 ≤ off ∧ off < 0x1A0 then some (shadowByte s.shadow off)
    else if 0x200 ≤ off ∧ off < 0x210 then some 0
    else m := by
  unfold pageOverlay
  split
  · rfl
  · split <;> rfl

end

/-- Settles O44: an ACK ends the access, and a read returns memory's bytes under the fixed values, under nothing, or
under the page's tables. -/
theorem anAckEndsAnAccess : Obligations.AnAckEndsAnAccess := by
  refine ⟨fun s d t0 x rest w flight hq named => ?_, fun s x d z => ⟨fun reads => ⟨fun f fixed => ?_,
    fun free outside => ?_, fun off free page i within => ?_⟩, fun w writes => readData_write d writes⟩⟩
  · exact (exec_ack d flight named).trans (done_of_eq (passFlight_access d hq))
  · rw [readData_read d reads, overlayFor_fixed fixed]
    rfl
  · rw [readData_read d reads, overlayFor_live free outside, Option.elim_none, layOver_nothing]
  · rw [readData_read d reads, overlayFor_live free page, Option.elim_some, Option.bind_some, layOver_page_get d off within,
      pageOverlay_or]

end Sys2Proof.Machine
end

section
/-! PROOFS. 08_the_outbound_queue_and_the_downstream_port.md: the table of the arbiter, when it decides and what issues
(R127, R130), and the order of the composer's conditions (R132). -/

namespace Sys2Proof.Machine

/-! ### The table of R127 -/

theorem isEmpty_iff_lowest (r : BogieSet) : BogieSet.isEmpty r = true ↔ BogieSet.lowest r = none := by
  rw [lowest_none]
  simp [BogieSet.isEmpty, Fin.forall_fin_succ, and_assoc]

section
variable {e : Emission}

/-- With no rewrite waiting the head entry is chosen, if there is one. -/
theorem choice_noRewrite (h : BogieSet.lowest e.rewriteSet = none) :
    e.choice = if e.queue = [] then none else some .head := by
  simp only [Emission.choice, h, List.isEmpty_iff]

/-- With a rewrite waiting it is chosen, unless an entry waits and the streak is at 2. -/
theorem choice_rewrite {b : BogieNo} (h : BogieSet.lowest e.rewriteSet = some b) :
    e.choice = if e.queue = [] ∨ e.streak < 2 then some (.rewrite b) else some .head := by
  simp only [Emission.choice, h, Bool.or_eq_true, List.isEmpty_iff, decide_eq_true_eq]

/-! ### When the arbiter decides -/

/-- With the D-port taken or a decision standing the arbiter leaves the decision. -/
theorem arbitrate_waits (h : e.inFlight ≠ none ∨ e.decision ≠ none) : e.arbitrate.decision = e.decision := by
  rcases h with taken | decided
  · obtain ⟨f, flight⟩ := Option.ne_none_iff_exists'.1 taken
    rw [arbitrate_taken e f flight]
  · obtain ⟨k, decision⟩ := Option.ne_none_iff_exists'.1 decided
    rw [arbitrate_decided e k decision]

theorem joined_decides (x : Entry) (free : e.inFlight = none) (undecided : e.decision = none) :
    (joined x e).decision = Emission.choice { e with queue := e.queue ++ [x] } :=
  congrArg Emission.decision (arbitrate_free { e with queue := e.queue ++ [x] } free undecided)

theorem joined_waits (x : Entry) (h : e.inFlight ≠ none ∨ e.decision ≠ none) : (joined x e).decision = e.decision :=
  arbitrate_waits (e := { e with queue := e.queue ++ [x] }) h

theorem requested_decides (b : BogieNo) (free : e.inFlight = none) (undecided : e.decision = none) :
    (requested b e).decision = Emission.choice { e with rewriteSet := e.rewriteSet.set b true } :=
  congrArg Emission.decision (arbitrate_free { e with rewriteSet := e.rewriteSet.set b true } free undecided)

theorem requested_waits (b : BogieNo) (h : e.inFlight ≠ none ∨ e.decision ≠ none) :
    (requested b e).decision = e.decision :=
  arbitrate_waits (e := { e with rewriteSet := e.rewriteSet.set b true }) h

end

/-- The answers and failures that can end what is in flight: at an end the arbiter decides by the table. -/
theorem exec_end_decides {s : State} {c : Instr} {d : Word}
    (h : (c = .dPortAck d none ∧ s.emission.inFlight ≠ none) ∨ FailsFlight s c) :
    ∃ t, exec c s = .next t ∧ (t.emission.inFlight = none → t.emission.decision = t.emission.choice) := by
  rcases h with ⟨rfl, taken⟩ | fails
  · obtain ⟨f, flight⟩ := Option.ne_none_iff_exists'.1 taken
    exact ⟨settle (passFlight f d s), exec_ack d flight (.inl rfl), passFlight_decision f d s⟩
  · obtain ⟨f, -, failed⟩ := exec_fails fails
    exact ⟨settle (failFlight f s), failed, failFlight_decision f s⟩

/-! ### What issues -/

theorem headMayIssue_iff (e : Emission) :
    headMayIssue e = true ↔ e.inFlight = none ∧ e.queue ≠ [] ∧ e.decision = some .head := by
  simp only [headMayIssue, Bool.and_eq_true, Option.isNone_iff_eq_none, Bool.not_eq_true', decide_eq_true_eq,
    ← Bool.not_eq_true, List.isEmpty_iff, and_assoc, ne_eq]

theorem issuingRewrite_iff (e : Emission) (b : BogieNo) : issuingRewrite e = some b ↔
    e.inFlight = none ∧ e.decision = some (.rewrite b) ∧ e.rewriteSet[b] = true := by
  unfold issuingRewrite
  cases flight : e.inFlight with
  | some f => simp
  | none =>
    cases decision : e.decision with
    | none => simp
    | some k =>
      cases k with
      | head => simp
      | rewrite c =>
        by_cases same : c = b
        · subst same
          simp
        · simp [same]

/-- Settles O3: the table by the lowest bogie of the rewrite set, the three events at which the arbiter decides, and
the two ways in which its decision issues. -/
theorem theArbiterIssuesByTheTable : Obligations.TheArbiterIssuesByTheTable := by
  refine ⟨fun e => ⟨fun empty idle => ?_, fun empty waits => ?_, fun b low idle => ?_, fun b low _ streak => ?_,
      fun b low waits streak => ?_, lowest_some e.rewriteSet⟩,
    fun e x => ⟨fun free undecided => joined_decides x free undecided, joined_waits x⟩,
    fun s b active => ?_, fun s c d ends => exec_end_decides ends,
    fun e => ⟨headMayIssue_iff e, issuingRewrite_iff e⟩⟩
  · rw [choice_noRewrite ((isEmpty_iff_lowest _).1 empty), if_pos idle]
  · rw [choice_noRewrite ((isEmpty_iff_lowest _).1 empty), if_neg waits]
  · rw [choice_rewrite low, if_pos (.inl idle)]
  · rw [choice_rewrite low, if_pos (.inr streak)]
  · rw [choice_rewrite low, if_neg (not_or.2 ⟨waits, Nat.not_lt.2 streak⟩)]
  · rw [requestRewrite_active b s active]
    exact ⟨requested_decides b, requested_waits b⟩

/-! ### The composer (R132) -/

section
variable {s : State} {b : BogieNo} (q : Request)

theorem compose_fallback (fallback : s.control.mode = .fallback) : compose s b q = Commands.frictionOnly
    (min (s.shadow.frictionMaximum b) (max (s.shadow.fallbackEffort b) q.brake)) :=
  if_pos fallback

theorem compose_latched (mode : s.control.mode ≠ .fallback) (latched : s.hold.latch ≠ .clear) :
    compose s b q = Commands.frictionOnly (holdFriction s b q) := by
  rw [compose, if_neg mode, if_pos latched]

theorem compose_late (mode : s.control.mode ≠ .fallback) (clear : s.hold.latch = .clear)
    (late : s.supervision[b].late = true) : compose s b q = Commands.frictionOnly (s.shadow.fallbackEffort b) := by
  rw [compose, if_neg mode, if_neg (not_not.2 clear), if_pos late]

/-- With no override the carried mode decides. -/
theorem compose_byMode (mode : s.control.mode ≠ .fallback) (clear : s.hold.latch = .clear)
    (live : s.supervision[b].late = false) :
    (q.mode = .coast → compose s b q = Commands.frictionOnly 0) ∧
      (q.mode = .drive → compose s b q =
        { motorA := shapedMotor s b q .a
          motorB := shapedMotor s b q .b
          friction := if s.hold.gate = .closed then s.shadow.holdEffort b else 0
          granted := 0
          shortfall := false }) ∧
      (q.mode = .brake → compose s b q =
        { motorA := -((blend s b q).shareA : Int)
          motorB := -((blend s b q).shareB : Int)
          friction := (blend s b q).friction
          granted := (blend s b q).electric
          shortfall := decide (s.shadow.shortfallTolerance b < (blend s b q).shortfall) }) ∧
      (q.mode = .hold → compose s b q = Commands.frictionOnly (holdFriction s b q)) := by
  have onTime : ¬ s.supervision[b].late = true := by rw [live]; decide
  rw [compose, if_neg mode, if_neg (not_not.2 clear), if_neg onTime]
  refine ⟨?_, ?_, ?_, ?_⟩ <;> (intro carried; rw [carried])

end

/-- Settles O38: each condition with those before it failing. -/
theorem theComposerTakesTheFirstThatApplies : Obligations.TheComposerTakesTheFirstThatApplies :=
  fun _ _ q => ⟨compose_fallback q, compose_latched q, compose_late q, compose_byMode q⟩

end Sys2Proof.Machine
end

section
/-! PROOFS. 09_demand_supervision_and_device_modes.md: the judgement of a DEMAND commit against the other bogies
(R143) and the request it carries (Table 11-1). -/

namespace Sys2Proof.Machine

/-! ### The cross-bogie rule (R143) -/

/-- A driving and a braking bogie conflict, and so do two bogies in drive or brake of unlike direction. -/
theorem conflicts_iff (q other : Request) : conflicts q other = true ↔
    (q.mode = .drive ∧ other.mode = .brake) ∨ (q.mode = .brake ∧ other.mode = .drive) ∨
      ((q.mode = .drive ∨ q.mode = .brake) ∧ (other.mode = .drive ∨ other.mode = .brake) ∧
        other.direction ≠ q.direction) := by
  unfold conflicts
  cases mode : q.mode with
  | coast => simp
  | hold => simp
  | drive =>
    simp only [Bool.or_eq_true, Bool.and_eq_true, decide_eq_true_eq]
    cases otherMode : other.mode <;> simp
  | brake =>
    simp only [Bool.or_eq_true, Bool.and_eq_true, decide_eq_true_eq]
    cases otherMode : other.mode <;> simp

theorem judgeDemandAgainst_false_iff (s : State) (b : BogieNo) (q : Request) : judgeDemandAgainst s b q = false ↔
    ∃ c, c ≠ b ∧ s.shadow.counts c = true ∧ conflicts q (s.standing c) = true := by
  rw [judgeDemandAgainst, ← Bool.not_eq_true, all_upTo4, not_forall]
  simp only [Bool.or_eq_true, decide_eq_true_eq, Bool.not_eq_true', not_or, Bool.not_eq_false, and_assoc, ne_eq]

/-! ### The codes of a demand record (Table 11-1, R141) -/

theorem ofRecord_mode {r : Record} {x : Byte} (h : r[0] = x) : (Request.ofRecord r).mode = DemandMode.ofCode x :=
  congrArg DemandMode.ofCode h

theorem ofRecord_direction {r : Record} {x : Byte} (h : r[1] = x) :
    (Request.ofRecord r).direction = Direction.ofCode x :=
  congrArg Direction.ofCode h

/-- Settles O15: a commit fails by a bogie that conflicts with it, and each field of its request is a code or a value
of the record's bytes. -/
theorem aDemandCommitIsJudgedAgainstTheOtherBogies : Obligations.ADemandCommitIsJudgedAgainstTheOtherBogies := by
  refine ⟨fun s b q => ?_, fun r => ⟨ofRecord_mode, ofRecord_mode, ofRecord_mode, ofRecord_mode, ofRecord_direction,
    ofRecord_direction, rfl, rfl, rfl, rfl, rfl, rfl, rfl, rfl⟩⟩
  simp only [judgeDemandAgainst_false_iff, conflicts_iff]

end Sys2Proof.Machine
end

section
/-! PROOFS. 09_demand_supervision_and_device_modes.md: the number that RUN validation answers (R149) and the mode
requests that are refused (R148, R168). -/

namespace Sys2Proof.Machine

/-! ### The first failing check (R149) -/

section
variable (sh : Shadow) (page : Nat)

/-- The check of RUN validation whose failure gives a reason. -/
def checkNumbered : Nat → Bool
  | 1 => checkCounts sh
  | 2 => checkWindows sh
  | 3 => checkOverlaps sh page
  | 4 => checkCoverage sh
  | 5 => checkAxleMap sh
  | 6 => checkOrderings sh
  | 7 => checkRanges sh
  | _ => true

theorem checkNumbered_iff (r : Nat) : checkNumbered sh page r = true ↔ RunCheck sh page r :=
  match r with
  | 0 => iff_of_true rfl trivial
  | 1 => checkCounts_iff sh page
  | 2 => checkWindows_iff sh page
  | 3 => checkOverlaps_iff sh page
  | 4 => checkCoverage_iff sh page
  | 5 => checkAxleMap_iff sh page
  | 6 => checkOrderings_iff sh page
  | 7 => checkRanges_iff sh page
  | _ + 8 => iff_of_true rfl trivial

/-- The first of the numbers 1 to 7 whose check fails. -/
def firstFailing : Option Nat :=
  (List.range' 1 7).find? fun r => !checkNumbered sh page r

theorem validate_eq_firstFailing : (validate sh page).val = (firstFailing sh page).getD 0 := by
  have step (p : Nat → Bool) (r : Nat) (rest : List Nat) :
      ((r :: rest).find? p).getD 0 = if p r = true then r else (rest.find? p).getD 0 := by
    rw [List.find?_cons]
    cases p r <;> rfl
  simp only [validate, apply_ite Fin.val, firstFailing, List.range', step, checkNumbered]
  rfl

theorem firstFailing_none_iff : firstFailing sh page = none ↔ ∀ r, 1 ≤ r → r ≤ 7 → RunCheck sh page r := by
  rw [firstFailing, List.find?_range'_eq_none]
  simp only [Bool.not_not, checkNumbered_iff, Nat.lt_succ_iff, Nat.reduceAdd]

theorem firstFailing_some_iff (r : Nat) : firstFailing sh page = some r ↔
    (1 ≤ r ∧ r ≤ 7) ∧ ¬ RunCheck sh page r ∧ ∀ k, 1 ≤ k → k < r → RunCheck sh page k := by
  rw [firstFailing, List.find?_range'_eq_some]
  simp only [Bool.not_not, Bool.not_eq_true', ← Bool.not_eq_true, checkNumbered_iff, List.mem_range'_1,
    Nat.lt_succ_iff, Nat.reduceAdd]
  tauto

theorem validate_zero_iff : validate sh page = 0 ↔ ∀ r, 1 ≤ r → r ≤ 7 → RunCheck sh page r := by
  rw [← firstFailing_none_iff, ← Fin.val_inj, validate_eq_firstFailing]
  cases first : firstFailing sh page with
  | none => simp
  | some r =>
    have positive : r ≠ 0 := Nat.one_le_iff_ne_zero.1 ((firstFailing_some_iff sh page r).1 first).1.1
    simp [positive]

theorem validate_reason_iff {r : Nat} (first : 1 ≤ r) (last : r ≤ 7) : (validate sh page).val = r ↔
    ¬ RunCheck sh page r ∧ ∀ k, 1 ≤ k → k < r → RunCheck sh page k := by
  have reason : (validate sh page).val = r ↔ firstFailing sh page = some r := by
    rw [validate_eq_firstFailing]
    cases firstFailing sh page with
    | none => simpa using (Nat.one_le_iff_ne_zero.1 first).symm
    | some k => simp
  rw [reason, firstFailing_some_iff]
  exact and_iff_right ⟨first, last⟩

end

/-! ### Mode requests that change no mode (R148) -/

section
variable {s : State}

/-- RUN is refused in SETUP with the reason of a validation that fails, and in another mode with 9. -/
theorem requestRun_refused {reason : Fin 10}
    (h : (s.control.mode = .setup ∧ validate s.shadow s.pageBase = reason ∧ reason ≠ 0) ∨
      (s.control.mode ≠ .setup ∧ reason = 9)) : requestRun s = rejectMode reason s := by
  unfold requestRun
  rcases h with ⟨mode, rfl, failed⟩ | ⟨mode, rfl⟩
  · simp only [mode, failed, if_false]
  · cases other : s.control.mode with
    | setup => exact absurd other mode
    | run => rfl
    | fallback => rfl

theorem atRest_false_iff (active : s.active = true) : atRest s = false ↔
    (∃ b, s.shadow.counts b = true ∧ (s.standing b).mode ≠ .hold) ∨
      (s.control.mode = .run ∧ s.shadow.standstillSpeed ≤ s.vref) := by
  rw [← Bool.not_eq_true, atRest_iff active, not_and_or]
  simp only [not_forall, exists_prop, not_lt, ne_eq]

theorem requestSetup_moving (active : s.active = true) (moving : atRest s = false) :
    requestSetup s = rejectMode 8 s := by
  simp only [requestSetup, active, moving, if_true, Bool.false_eq_true, if_false]

theorem requestSetup_setup (mode : s.control.mode = .setup) : requestSetup s = s := by
  have inactive : ¬ s.active = true := fun active => (active_iff s).1 active mode
  rw [requestSetup, if_neg inactive]

end

section
variable {s : State} {a : Address} {z : AccessSize} {d : Word} (h : OnPage s a z 0x20) (room : HasRoom s)
include h room

theorem exec_modeRequestRun (hd : d.toNat % 256 = 1) :
    exec (.modeRequestRun 0 a z d) s = .next (settle (requestRun (modeWriteCleared a z d s))) := by
  rw [exec_write s (c := .modeRequestRun 0 a z d) rfl, presentWrite_requestRun h hd room]
  rfl

theorem exec_modeRequestSetup (hd : d.toNat % 256 = 2) :
    exec (.modeRequestSetup 0 a z d) s = .next (settle (requestSetup (modeWriteCleared a z d s))) := by
  rw [exec_write s (c := .modeRequestSetup 0 a z d) rfl, presentWrite_requestSetup h hd room]
  rfl

end

/-- Settles O22: the write clears and acknowledges, and then its mode request is refused or does nothing; validation
answers the first failing check. -/
theorem aRefusedModeRequestKeepsItsReason : Obligations.ARefusedModeRequestKeepsItsReason := by
  refine ⟨fun s a z d reason h hd room refused => ?_,
    fun s a z d h hd room => ⟨fun active moving => ?_, fun mode => ?_⟩,
    fun sh page => ⟨validate_zero_iff sh page, fun r first last => validate_reason_iff sh page first last⟩⟩
  · rw [exec_modeRequestRun h room hd, requestRun_refused (s := modeWriteCleared a z d s) refused]
    rfl
  · have notAtRest : atRest (modeWriteCleared a z d s) = false :=
      (atRest_false_iff (s := modeWriteCleared a z d s) active).2 moving
    rw [exec_modeRequestSetup h room hd, requestSetup_moving (s := modeWriteCleared a z d s) active notAtRest]
    rfl
  · rw [exec_modeRequestSetup h room hd, requestSetup_setup (s := modeWriteCleared a z d s) mode]
    rfl

end Sys2Proof.Machine
end

section
/-! PROOFS. 10_notices_the_alert_line_and_status_reads.md: that a kind is pending exactly while its count is at least
one, and its entry clear while it is not pending (R154 to R156). -/

namespace Sys2Proof.Machine

/-! ### One entry (R154, R155) -/

/-- The entry is pending exactly while its count is not zero, and clear while it is not pending: `NoticesSound` of one
entry. -/
def Notice.Fits (n : Notice) : Prop :=
  (n.pending = true ↔ n.count ≠ 0) ∧ (n.pending = false → n = Notice.clear)

theorem noticesSound_iff (s : State) : NoticesSound s ↔ ∀ i : Fin 15, s.notices[i].Fits := Iff.rfl

theorem Notice.fits_clear : Notice.clear.Fits :=
  ⟨by decide, fun _ => rfl⟩

/-- A raise of a pending kind counts up to 255 and stays there (R155). -/
theorem Notice.raised_pending {n : Notice} (pending : n.pending = true) (index : Byte) (now : Word) :
    n.raised index now =
      { n with
        count := if n.count = 255 then 255 else n.count + 1
        latestIndex := index
        latestTime := now } :=
  if_pos pending

/-- A raise of a kind that is not pending starts its entry anew (R155). -/
theorem Notice.raised_fresh {n : Notice} (fresh : n.pending = false) (index : Byte) (now : Word) :
    n.raised index now =
      { pending := true
        count := 1
        firstIndex := index
        latestIndex := index
        firstTime := now
        latestTime := now } :=
  if_neg (by rw [fresh]; decide)

theorem Notice.fits_of_counted {n : Notice} (pending : n.pending = true) (counted : n.count ≠ 0) : n.Fits :=
  ⟨iff_of_true pending counted, fun fresh => absurd (pending.symm.trans fresh) (by decide)⟩

/-- The count of a raised entry is never zero, for it stops at 255 and does not wrap. -/
theorem Notice.fits_raised (n : Notice) (index : Byte) (now : Word) : (n.raised index now).Fits := by
  cases pending : n.pending with
  | false =>
    rw [Notice.raised_fresh pending]
    have counted : (1 : Byte) ≠ 0 := by decide
    exact Notice.fits_of_counted rfl counted
  | true =>
    rw [Notice.raised_pending pending]
    refine Notice.fits_of_counted pending ?_
    simp only
    split
    · decide
    · bv_omega

/-! ### What a change keeps of the table -/

/-- A change from the first state to the second keeps the notices sound. -/
def NoticesKept (s t : State) : Prop := NoticesSound s → NoticesSound t

theorem NoticesKept.refl (s : State) : NoticesKept s s := id

theorem NoticesKept.trans {s t u : State} (h : NoticesKept s t) (k : NoticesKept t u) : NoticesKept s u := k ∘ h

/-- A change that leaves the notice table. -/
theorem NoticesKept.of {s t : State} (same : t.notices = s.notices) : NoticesKept s t := by
  rw [NoticesKept, noticesSound_iff, noticesSound_iff, same]
  exact id

/-- A raise gives its own kind an entry that fits, and no other kind another. -/
theorem NoticesKept.raised {s t : State} (k : NoticeKind) (i : Nat) (h : NoticesKept s t) :
    NoticesKept s (raise k i t) := by
  refine h.trans fun sound j => ?_
  rw [raise_eq]
  by_cases own : j = k.slot
  · subst own
    rw [noted_same]
    exact Notice.fits_raised _ _ _
  · rw [noted_other _ _ _ _ _ own]
    exact sound j

theorem NoticesKept.acknowledged (mask : Half) (s : State) : NoticesKept s (acknowledge mask s) := by
  intro sound i
  have entry : (acknowledge mask s).notices[i] = if mask.getLsbD (i.val + 1) then Notice.clear else s.notices[i] := by
    simp [acknowledge]
  rw [entry]
  split
  · exact Notice.fits_clear
  · exact sound i

/-- The sanders raise no notice, and neither do rewrite requests. -/
theorem SanderChange.noticesKept {s t : State} (h : SanderChange s t) : NoticesKept s t := by
  obtain ⟨_, _, _, rfl, -⟩ := h
  exact .of rfl

theorem NoticesKept.reacted {s t : State} (h : NoticesKept s t) : NoticesKept s (sandersReact t) :=
  h.trans (sandersReact_change t).noticesKept

theorem NoticesKept.sanded {s t : State} (v : Vector Request 4) (issuing : Option BogieNo) (b : BogieNo)
    (h : NoticesKept s t) : NoticesKept s (sanderEvent v issuing b t) :=
  h.trans (sanderEvent_change v issuing b t).noticesKept

theorem NoticesKept.requested {s t : State} (b : BogieNo) (h : NoticesKept s t) :
    NoticesKept s (requestRewrite b t) :=
  h.trans (SanderChange.ofRewrite (requestRewrite_change b t)).noticesKept

section
variable (s : State)

/-! ### A stored sample -/

theorem evaluateVref_noticesKept (n : AxleNo) : NoticesKept s (evaluateVref n s) := by
  obtain ⟨-, -, notices, -⟩ := evaluateVref_keeps n s
  exact .of notices

/-- An entry into SLIP raises SLIP_ENTRY, and PERSISTENT_SLIP where the test holds (R54, R55). -/
theorem enterSlip_noticesKept (n : AxleNo) : NoticesKept s (enterSlip n s) := by
  have entered (x : Axle) : NoticesKept s (setAxle n x s) := .of rfl
  unfold enterSlip
  simp only
  split
  · exact ((((entered _).raised _ _).raised _ _).requested _).reacted
  · exact (((entered _).raised _ _).requested _).reacted

theorem transition_noticesKept (n : AxleNo) : NoticesKept s (transition n s) := by
  rcases transition_plan n (SameInputs.refl s) with ⟨h, -⟩ | ⟨x, -, h, -⟩ | ⟨x, -, h, -⟩ | ⟨h, -⟩ <;> rw [h]
  · exact enterSlip_noticesKept s n
  · exact .of rfl
  · exact .reacted (.of rfl)
  · exact .refl s

/-- A latching raises ROLLBACK alone (R102). -/
theorem latchRollback_noticesKept (n : AxleNo) : NoticesKept s (latchRollback n s) := by
  obtain ⟨-, -, -, notices⟩ := latchRollback_facts n s
  exact ((NoticesKept.refl s).raised .rollback n.val).trans (.of notices)

theorem storeSample_noticesKept (n : AxleNo) (speed : Nat) (quality : Quality) (sensed : Option Direction) :
    NoticesKept s (storeSample n speed quality sensed s) := by
  have moved : NoticesKept s (transition n (sampled n speed quality s)) :=
    (NoticesKept.of (sampled_notices n speed quality s)).trans (transition_noticesKept _ n)
  rw [storeSample_eq]
  split
  · exact moved.trans (latchRollback_noticesKept _ n)
  · exact moved

theorem applySpeed_noticesKept (n : AxleNo) (r : Record) : NoticesKept s (applySpeed n r s) := by
  have sequenced : NoticesKept s (setAxle n { s.axles[n] with lastSequence := some r[14] } s) := .of rfl
  have classed : NoticesKept s
      (if sequenceClass s.axles[n].lastSequence r[14] = .gap then
        raise .seqGap n.val (setAxle n { s.axles[n] with lastSequence := some r[14] } s)
      else setAxle n { s.axles[n] with lastSequence := some r[14] } s) := by
    split
    · exact sequenced.raised _ _
    · exact sequenced
  unfold applySpeed
  simp only
  split
  · exact .refl s
  · split
    · exact classed
    · exact classed.trans (storeSample_noticesKept _ _ _ _ _)
    · exact classed.trans (storeSample_noticesKept _ _ _ _ _)

/-! ### An issue (R131) -/

theorem composingState_noticesKept (b : BogieNo) (q : Request) (rewrite : Bool) :
    NoticesKept s (composingState b q rewrite s) := by
  have left : NoticesKept s (leaveRewriteSet b rewrite s) := .of rfl
  have opened (v : Vector Request 4) (u : State) : NoticesKept u (openWindow v q u) := by
    unfold openWindow
    split
    · exact .of rfl
    · exact .refl u
  have prepared (u : State) : NoticesKept u (prepareIssue b q u) :=
    (opened _ (u.withHold { u.hold with direction := q.direction })).trans (sandersEvent_change _ _ _).noticesKept
  unfold composingState
  simp only
  split
  · exact left.trans (prepared _)
  · exact left

/-- The accounting raises BRAKE_SHORTFALL where the composition fell short (R90), and stage 7 raises nothing. -/
theorem settleIssue_noticesKept (b : BogieNo) (q : Request) (k : Commands) (before : Bool) :
    NoticesKept s (settleIssue b q k before s) := by
  cases active : s.active with
  | false =>
    have motors : settleIssue b q k before s = noteMotors b q k s := if_neg (by rw [active]; decide)
    rw [motors]
    exact .of rfl
  | true =>
    have short : NoticesKept s (noteShortfall b k s) := by
      unfold noteShortfall
      split
      · exact (NoticesKept.refl s).raised _ _
      · exact .refl s
    have accounts : NoticesKept s (accounted b q k s) := short.trans (.of rfl)
    have outside : (accounted b q k s).active = true := by
      rw [accounted_eq]
      exact active
    obtain ⟨-, -, -, -, -, -, -, -, -, -, -, -, notices, -⟩ := holdStage_facts b q before _ outside
    rw [settleIssue_active b q k before active]
    exact accounts.trans (.of notices)

theorem issueDemand_noticesKept (b : BogieNo) (q : Request) (rewrite : Bool) (of : BurstOf) (a : Address) :
    NoticesKept s (issueDemand b q rewrite of a s) := by
  rw [issueDemand_eq]
  exact ((composingState_noticesKept s b q rewrite).trans (settleIssue_noticesKept _ b q _ _)).trans (.of rfl)

/-! ### The other parts of commands -/

theorem applyFeedback_noticesKept (b : BogieNo) (r : Record) : NoticesKept s (applyFeedback b r s) := by
  by_cases duplicate : s.feedback[b].lastSequence = some r[14]
  · rw [applyFeedback_duplicate duplicate]
    exact .refl s
  · have classed : NoticesKept s { s with notices := gapNoted b r[14] s } := by
      unfold gapNoted
      split
      · exact (NoticesKept.refl s).raised _ _
      · exact .refl s
    rw [applyFeedback_fresh duplicate, evaluateGate_frame]
    exact classed.trans (.of rfl)

theorem applyDemand_noticesKept (b : BogieNo) : NoticesKept s (applyDemand b s) := by
  unfold applyDemand
  simp only
  split
  · exact .reacted (.of rfl)
  · exact .of rfl

theorem staled_noticesKept (n : AxleNo) : NoticesKept s (staled n s) := by
  have expired : NoticesKept s (setAxle n s.axles[n].expire s) := .of rfl
  exact (expired.reacted.raised _ _).requested _

theorem demandTimerExpires_noticesKept (b : BogieNo) : NoticesKept s (demandTimerExpires b s) := by
  have late : NoticesKept s
      (s.withSupervision (s.supervision.set b { s.supervision[b] with timer := none, late := true })) := .of rfl
  exact (late.raised _ _).requested b

theorem releaseWaitExpires_noticesKept : NoticesKept s (releaseWaitExpires s) := by
  have stopped : NoticesKept s (s.withHold { s.hold with releaseWait := none, blockedReported := true }) := .of rfl
  unfold releaseWaitExpires
  simp only
  split
  · exact stopped
  · exact stopped.raised _ _

theorem settlingExpires_noticesKept : NoticesKept s (settlingExpires s) := by
  have clears (h : Hold) : NoticesKept s (sandersReact (s.withHold h)) := .reacted (.of rfl)
  unfold settlingExpires
  simp only
  split
  · exact clears _
  · exact .of rfl

/-- A fall raises SAND_LOW at a crossing and SAND_EMPTY at the last unit (R116, R117). -/
theorem budgetFall_noticesKept (b : BogieNo) : NoticesKept s (budgetFall b s) := by
  by_cases spent : s.sand.sanders[b].budget = 0
  · rw [budgetFall_none spent]
    exact .of rfl
  · have low : NoticesKept s { s with notices := lowNoted b s } := by
      unfold lowNoted
      split
      · exact (NoticesKept.refl s).raised _ _
      · exact .refl s
    have fallen : NoticesKept s
        { s with
          notices :=
            if s.sand.sanders[b].budget = 1 then noted .sandEmpty b.val s.timeBase (lowNoted b s)
            else lowNoted b s } := by
      split
      · exact low.raised .sandEmpty b.val
      · exact low
    rw [budgetFall_blocks spent]
    exact fallen.trans (.of rfl)

theorem fallbackEntry_noticesKept (c : FallbackCause) : NoticesKept s (fallbackEntry c s) := by
  have entered : NoticesKept s (s.withControl { s.control with mode := .fallback, fallbackCause := c }) := .of rfl
  exact entered.trans (fallbackEntry_change c s).noticesKept

end

/-- Power-on clears every entry (R159). -/
theorem powerOnState_noticesSound (straps : Fin 8) (s : State) : NoticesSound (powerOnState straps s) :=
  noticesSound_reset

/-- Every part of a command keeps the notices sound. -/
theorem noticesKept_parts : CommandParts NoticesKept where
  refl := .refl
  trans := .trans
  outer h := by
    unfold OuterChange at h
    have same := congrArg State.notices h
    exact .of same
  powerOn straps s _ := powerOnState_noticesSound straps s
  rackReset _ _ := .of rfl
  raise k i s := (NoticesKept.refl s).raised k i
  applySpeed n r s := applySpeed_noticesKept s n r
  applyFeedback b r s := applyFeedback_noticesKept s b r
  applyDemand b s := applyDemand_noticesKept s b
  clearFlags _ _ := .of rfl
  acknowledge := .acknowledged
  refill b v s := (refill_change b s v).noticesKept
  shadowWrite _ _ := .of rfl
  rejectReason _ _ := .of rfl
  runEntry _ := .of rfl
  setupEntry _ := .of rfl
  fallbackEntry c s _ := fallbackEntry_noticesKept s c
  staled {n s} _ := staled_noticesKept s n
  freshnessExpires _ := .of rfl
  demandTimerExpires {b s} _ := demandTimerExpires_noticesKept s b
  releaseWaitExpires {s} _ := releaseWaitExpires_noticesKept s
  settlingExpires {s} _ := settlingExpires_noticesKept s
  windowExpires _ := .reacted (.of rfl)
  dwellExpires _ := .sanded _ _ _ (.of rfl)
  runExpires {b s} _ := by
    rw [runExpires_eq]
    exact .of rfl
  pauseExpires _ := .sanded _ _ _ (.of rfl)
  budgetFall {b s} _ := budgetFall_noticesKept s b
  issueDemand b q rewrite of a s := issueDemand_noticesKept s b q rewrite of a

/-- Settles O56: every part of a command keeps the notices sound, and so does every step; the passing of time leaves the
table. -/
theorem everyStepKeepsTheNoticesSound : Obligations.EveryStepKeepsTheNoticesSound :=
  noticesKept_parts.step_keeps NoticesSound (fun _ _ h => h) (fun _ _ h => h) (fun _ _ h => h) fun _ h => h

end Sys2Proof.Machine
end

section
/-! PROOFS. 10_notices_the_alert_line_and_status_reads.md: a raise, the top notice code and the pending set (R155,
R157). -/

namespace Sys2Proof.Machine

/-! ### The top notice code and the pending set (R157) -/

section
variable (t : Vector Notice 15)

theorem topNotice_none (none : ∀ i : Fin 15, t[i].pending = false) : topNotice t = 0 := by
  have absent : t.toList.findIdx? Notice.pending = .none := by
    rw [List.findIdx?_eq_none_iff]
    intro n member
    obtain ⟨i, here, rfl⟩ := List.getElem_of_mem member
    have size : i < 15 := by simpa using here
    simpa using none ⟨i, size⟩
  rw [topNotice, absent]

/-- The top code is that of a pending kind below which none is pending. -/
theorem topNotice_lowest {i : Fin 15} (pending : t[i].pending = true)
    (lower : ∀ j : Fin 15, j < i → t[j].pending = false) : topNotice t = i.val + 1 := by
  have first : t.toList.findIdx? Notice.pending = some i.val := by
    rw [List.findIdx?_eq_some_iff_getElem]
    refine ⟨by simp, by simpa using pending, fun j below => ?_⟩
    have size : j < 15 := by omega
    simpa using lower ⟨j, size⟩ below
  rw [topNotice, first]

theorem pendingSet_bit (i : Fin 15) : (pendingSet t).getLsbD (i.val + 1) = t[i].pending := by
  rw [pendingSet, BitVec.getLsbD_append, if_neg (by omega), Nat.add_sub_cancel, maskOf_bit]

theorem pendingSet_bit_zero : (pendingSet t).getLsbD 0 = false := by
  rw [pendingSet, BitVec.getLsbD_append, if_pos Nat.one_pos]
  rfl

end

/-- Settles O53: a raise writes the entry of its kind by whether it is pending; the top code and the pending set. -/
theorem aRaiseCountsAndTheTopIsTheLowestCode : Obligations.ARaiseCountsAndTheTopIsTheLowestCode := by
  refine ⟨fun s k i => ?_,
    fun t => ⟨topNotice_none t, fun i => topNotice_lowest t, pendingSet_bit t, pendingSet_bit_zero t⟩⟩
  have own : (raise k i s).notices[k.slot] = s.notices[k.slot].raised (BitVec.ofNat 8 i) s.timeBase :=
    noted_same k i s.timeBase s.notices
  exact ⟨fun fresh => own.trans (Notice.raised_fresh fresh _ _),
    fun pending => own.trans (by rw [Notice.raised_pending pending, pending]),
    fun j other => noted_other k i s.timeBase s.notices j other, rfl⟩

end Sys2Proof.Machine
end

section
/-! PROOFS. 10_notices_the_alert_line_and_status_reads.md, 11_the_control_page_and_record_layouts.md: a write of a
shadow table in SETUP, and the bytes it replaces (R158, R165, R166). -/

namespace Sys2Proof.Machine

/-! ### The write at the U-port (R165, R166) -/

/-- A shadow table write by tag 0 in SETUP is accepted (R166). -/
theorem decidePageWrite_setup {s : State} {off : Nat} (z : AccessSize) (d : Word) (first : 0x40 ≤ off)
    (last : off < 0x1A0) (setup : s.control.mode = .setup) : decidePageWrite s 0 off z d = .accept := by
  have region : ¬ (0x20 ≤ off ∧ off < 0x40) := by omega
  have inactive : ¬ s.active = true := fun active => (active_iff s).1 active setup
  simp only [decidePageWrite, ne_eq, not_true_eq_false, if_false, region, first, last, and_self, if_true, inactive,
    Bool.false_eq_true]

/-- Such a write takes its entry, and then writes the shadow. -/
theorem presentWrite_table {s : State} {a : Address} {z : AccessSize} {d : Word} {off : Nat} (h : OnPage s a z off)
    (first : 0x40 ≤ off) (last : off < 0x1A0) (setup : s.control.mode = .setup) (room : HasRoom s) :
    presentWrite 0 a z d s = { pageWriteTaken s a z d with shadow := s.shadow.write off z d } :=
  calc presentWrite 0 a z d s
      = pageActions off z d (pageWriteTaken s a z d) := by
        rw [presentWrite_page 0 d h, pageWriteTreatment_accept (decidePageWrite_setup z d first last setup) room]
    _ = (pageWriteTaken s a z d).withShadow (s.shadow.write off z d) :=
        (if_neg (by omega)).trans (if_pos ⟨first, last⟩)

/-! ### The bytes of one table -/

/-- A write to a table of one row that begins at a base, in places counted over the page. -/
theorem row_write_get {n base off j p : Nat} (row : Vector Byte n) (z : AccessSize) (d : Word) {i : Fin n}
    (starts : off = base + p) (place : j = base + i.val) :
    (writeBytes row p z d)[i] = if off ≤ j ∧ j < off + z.bytes then byteOf d (j - off) else row[i] := by
  have column : j - off = i.val - p := by omega
  rw [writeBytes_get, column]
  exact if_congr (by omega) rfl rfl

/-- A write that fits in a row of a table whose rows are laid one after another from a base. -/
theorem rows_write_get {m n base off j p : Nat} (rows : Vector (Vector Byte n) m) {z : AccessSize} (d : Word)
    {w v : Fin m} {i : Fin n} (fits : p + z.bytes ≤ n) (starts : off = base + n * w.val + p)
    (place : j = base + n * v.val + i.val) :
    (rows.set w (writeBytes rows[w] p z d))[v][i] =
      if off ≤ j ∧ j < off + z.bytes then byteOf d (j - off) else rows[v][i] := by
  by_cases same : w = v
  · subst same
    rw [set_same]
    exact row_write_get rows[w] z d starts place
  · have apart : n * w.val + n ≤ n * v.val ∨ n * v.val + n ≤ n * w.val := by
      rcases Nat.lt_or_gt_of_ne fun e => same (Fin.ext e) with below | above
      · exact .inl (Nat.mul_le_mul_left n below)
      · exact .inr (Nat.mul_le_mul_left n above)
    have column := i.isLt
    rw [set_other _ _ _ _ same, if_neg (by omega)]

/-- An aligned access stays within the aligned word that it starts in. -/
theorem aligned_fits_word {z : AccessSize} {off : Nat} (aligned : off % z.bytes = 0) :
    off % 4 + z.bytes ≤ 4 := by
  cases z <;> simp only [AccessSize.bytes] at aligned ⊢ <;> omega

/-! ### The shadow's bytes after a write (R166) -/

/-- The byte law at one place: the byte that the write covers it with, or the byte that stood there. -/
def Shadow.Replaces (sh : Shadow) (off : Nat) (z : AccessSize) (d : Word) (j : Nat) : Prop :=
  shadowByte (sh.write off z d) j =
    if off ≤ j ∧ j < off + z.bytes then byteOf d (j - off) else shadowByte sh j

/-- The six shadow tables (Tables 11-4 to 11-7). -/
inductive ShadowTable where
  | windows
  | axles
  | bogies
  | vehicle
  | coefficients
  | routes

/-- The table that a page offset from 0x040 to 0x19F lies in (R165). -/
def shadowTable (off : Nat) : ShadowTable :=
  if off < 0x0C0 then .windows
  else if off < 0x100 then .axles
  else if off < 0x140 then .bogies
  else if off < 0x180 then .vehicle
  else if off < 0x190 then .coefficients
  else .routes

section
variable (sh : Shadow) {z : AccessSize} (d : Word) {off j : Nat}

/-- Every table starts and ends at a multiple of 4, so that an aligned access covers bytes of one table alone. -/
theorem shadowTable_covered (aligned : off % z.bytes = 0) (covered : off ≤ j ∧ j < off + z.bytes) :
    shadowTable off = shadowTable j := by
  have fits := aligned_fits_word aligned
  have side (e : Nat) (table : e % 4 = 0) : (off < e) = (j < e) := propext (by omega)
  simp only [shadowTable, side 0x0C0 rfl, side 0x100 rfl, side 0x140 rfl, side 0x180 rfl, side 0x190 rfl]

/-- A write leaves the bytes of the other tables. -/
theorem Shadow.write_other (apart : shadowTable off ≠ shadowTable j) :
    shadowByte (sh.write off z d) j = shadowByte sh j := by
  unfold shadowTable at apart
  unfold shadowByte
  split_ifs at apart ⊢
  any_goals exact absurd rfl apart
  all_goals simp (disch := omega) only [Shadow.write, if_pos, if_neg]

/-- In its own table a write replaces the bytes it covers, and no others: three tables are of rows, the other three of
one row each. -/
theorem Shadow.write_same (aligned : off % z.bytes = 0) (first : 0x40 ≤ off) (last : off < 0x1A0) (lo : 0x40 ≤ j)
    (hi : j < 0x1A0) (same : shadowTable off = shadowTable j) : sh.Replaces off z d j := by
  have fits := aligned_fits_word aligned
  unfold shadowTable at same
  split_ifs at same <;> cases same <;>
    simp (disch := omega) only [Shadow.Replaces, Shadow.write, shadowByte, if_pos, if_neg]
  · exact rows_write_get (base := 0x040) sh.windows d (by omega) (by simp only [Fin.val_ofNat]; omega)
      (by simp only [Fin.val_ofNat]; omega)
  · exact rows_write_get (base := 0x0C0) sh.axles d (by omega) (by simp only [Fin.val_ofNat]; omega)
      (by simp only [Fin.val_ofNat]; omega)
  · exact rows_write_get (base := 0x100) sh.bogies d (by omega) (by simp only [Fin.val_ofNat]; omega)
      (by simp only [Fin.val_ofNat]; omega)
  · exact row_write_get (base := 0x140) sh.vehicle z d (by omega) (by simp only [Fin.val_ofNat]; omega)
  · exact row_write_get (base := 0x180) sh.coefficients z d (by omega) (by simp only [Fin.val_ofNat]; omega)
  · exact row_write_get (base := 0x190) sh.routes z d (by omega) (by simp only [Fin.val_ofNat]; omega)

theorem Shadow.write_replaces (aligned : off % z.bytes = 0) (first : 0x40 ≤ off) (last : off < 0x1A0) (lo : 0x40 ≤ j)
    (hi : j < 0x1A0) : sh.Replaces off z d j := by
  by_cases same : shadowTable off = shadowTable j
  · exact sh.write_same d aligned first last lo hi same
  · rw [Shadow.Replaces, sh.write_other d same, if_neg fun covered => same (shadowTable_covered aligned covered)]

end

/-- Settles O20: the write's entry and the shadow that it leaves, and the bytes of that shadow. -/
theorem aShadowTableWriteInSetupReplacesItsBytes : Obligations.AShadowTableWriteInSetupReplacesItsBytes := by
  refine ⟨fun s a z d off h first last setup room => ?_,
    fun sh z d off j first last aligned lo hi => sh.write_replaces d aligned first last lo hi⟩
  have table (c : Instr) (carries : writeOf c = some (0, a, z, d)) :
      exec c s = .next (settle { pageWriteTaken s a z d with shadow := s.shadow.write off z d }) := by
    rw [exec_write s carries, presentWrite_table h first last setup room]
    rfl
  exact ⟨table _ rfl, fun _ => table _ rfl⟩

end Sys2Proof.Machine
end

section
/-! PROOFS. 11_the_control_page_and_record_layouts.md: page writes that are forwarded with no effect, and page writes
that find no room (R8, R124, R165 to R167). -/

namespace Sys2Proof.Machine

/-- The decision accepts every write by tag 0 that its region does not refuse: a control record write that R167 allows,
a shadow table write in SETUP, and any write elsewhere on the page (R166, R167). -/
theorem decidePageWrite_allowed {s : State} {off : Nat} {z : AccessSize} {d : Word}
    (known : ¬ (off = 0x20 ∧ 2 < d.toNat % 256)) (whole : ¬ (z = .byte ∧ 0x24 ≤ off ∧ off < 0x2C))
    (table : 0x40 ≤ off → off < 0x1A0 → s.control.mode = .setup) : decidePageWrite s 0 off z d = .accept := by
  by_cases control : 0x20 ≤ off ∧ off < 0x40
  · have allowed : controlWriteRefused off z d = false := by
      simp only [controlWriteRefused, byteOf_zero_toNat, ← Bool.decide_and, ← Bool.decide_or, decide_eq_false_iff_not,
        not_or]
      exact ⟨known, whole⟩
    simp only [decidePageWrite, ne_eq, not_true_eq_false, if_false, control, and_self, if_true, allowed,
      Bool.false_eq_true]
  · by_cases shadow : 0x40 ≤ off ∧ off < 0x1A0
    · exact decidePageWrite_setup z d shadow.1 shadow.2 (table shadow.1 shadow.2)
    · simp only [decidePageWrite, ne_eq, not_true_eq_false, if_false, control, shadow]

/-- A write to the status record, to bytes 12 to 31 of the control record, to the plain region or to the notice table
carries no action (R165, R167). -/
theorem pageActions_none {off : Nat} (z : AccessSize) (d : Word) (s : State)
    (plain : off < 0x20 ∨ (0x2C ≤ off ∧ off < 0x40) ∨ 0x1A0 ≤ off) : pageActions off z d s = s := by
  by_cases control : 0x20 ≤ off ∧ off < 0x40
  · exact (if_pos control).trans (controlActions_none d s (by omega))
  · exact (if_neg control).trans (if_neg (by omega))

/-- Settles O18: the decision accepts the write; with room its entry is taken and no action follows, without room it is
answered RETRY. -/
theorem aPageWriteWithoutAnActionIsForwarded : Obligations.APageWriteWithoutAnActionIsForwarded := by
  refine ⟨fun s a z d off h plain room => ?_, fun c s a z d off hc h full known whole table => ?_⟩
  · have accept : decidePageWrite s 0 off z d = .accept :=
      decidePageWrite_allowed (by omega) (by omega) (by omega)
    rw [exec_write s (c := .pageWrite 0 a z d) rfl, presentWrite_page 0 d h, pageWriteTreatment_accept accept room,
      pageActions_none z d _ plain]
    rfl
  · rw [exec_write s hc, presentWrite_page 0 d h,
      pageWriteTreatment_retry (decidePageWrite_allowed known whole table) full]
    rfl

end Sys2Proof.Machine
end

section
/-! PROOFS. 95_what_each_step_holds.md: a step with a command waiting. -/

namespace Sys2Proof.Machine

/-- Settles O1: a step takes the command at the front and leaves the rest of the queue. -/
theorem stepRunsTheFrontCommand : Obligations.StepRunsTheFrontCommand :=
  fun c rest s => step_front c rest { s with pending := c :: rest } rfl

end Sys2Proof.Machine
end
